-- ==== Sys2Proof/Word.lean ====
section
/-! DEFINITION. The word types of the engine (spec/00_scope.md R21, R22): bytes, 16-bit CRC values,
4-bit sequences and 2-bit length-classes are bit vectors. Tick values, lengths and counts are naturals (R21); Lean's
subtraction of naturals is the saturating subtraction of R26. -/

namespace Sys2Proof

/-- One byte of a frame, of the receive buffer or of a payload (R22). -/
abbrev Byte := BitVec 8

/-- A value of the CRC engine (R22). -/
abbrev Crc := BitVec 16

/-- A sequence number as the header carries it (R20, R81). -/
abbrev Seq := BitVec 4

/-- A length-class: the two low bits of a header (R81, R84). -/
abbrev LenClass := BitVec 2

end Sys2Proof
end

