-- ==== Sys2Proof/Config.lean ====
section
/-! DEFINITION. What an integrator fixes (the arguments of init: spec/00_scope.md R11 to R18, spec/10_state.md R32)
and the free values: the byte `draw_byte()` gives (R26, R182) and the contents of the registers that init leaves
unspecified (R55, R250). -/

namespace Sys2Proof

/-- The kind of a frame: the four 2-bit codes `UNSYNC = 0`, `SYNC = 1`, `ACK = 2`, `NACK = 3` (R27, R82). The codes
themselves are `Kind.code` in Decode.lean. -/
inductive Kind where
  | unsync | sync | ack | nack
  deriving DecidableEq, Repr, Inhabited

/-- `CFG.*`: the configuration registers, and the argument of init (R32). -/
structure Cfg where
  /-- `CFG.MAX_RETRIES`: the configured retry limit (R11). -/
  maxRetries : Nat
  /-- `CFG.RETRY_DELAY`: ticks of the ack-timeout (R12). -/
  retryDelay : Nat
  /-- `CFG.RX_TIMEOUT`: ticks of the receive-timeout (R13). -/
  rxTimeout : Nat
  /-- `CFG.NACK_GARBAGE`: the garbage-NACKing policy (R16). -/
  nackGarbage : Bool
  /-- `CFG.HAS_NONPROTOCOL_CB`: whether `on_nonprotocol_byte` is configured (R17). -/
  hasNonprotocolCb : Bool
  /-- `CFG.RX_BUF_SIZE`: bytes of the receive buffer (R15). -/
  rxBufSize : Nat
  deriving DecidableEq, Repr

/-- The smallest receive buffer that init accepts (R15, R251), and the longest payload (R18). -/
def maxPayload : Nat := 768

/-- The default of `RX_TIMEOUT`: `2 × RETRY_DELAY × MAX_RETRIES` (R13). -/
def defaultRxTimeout (retryDelay maxRetries : Nat) : Nat := 2 * retryDelay * maxRetries

/-- The configuration of `INIT {}` in the spec's scripts: the defaults of R11, R12, R13 and R16, with the callback
present and the smallest buffer (spec/95_test_vectors.md, "Start state"; the last two have no default of their own:
assumption 2). -/
def defaultCfg : Cfg :=
  { maxRetries := 10, retryDelay := 40, rxTimeout := defaultRxTimeout 40 10,
    nackGarbage := false, hasNonprotocolCb := true, rxBufSize := maxPayload }

/-- The parameter `CRC_UPDATE` (R19, decision D5), as plain data: Machine/Crc.lean gives the function. -/
inductive CrcUpdate where
  /-- The default: the function of R110, which the spec supplies from general knowledge. -/
  | reconstructed
  /-- Any other byte-update function, by a name for it: a function without a body. -/
  | other (id : Nat)
  deriving DecidableEq, Repr

/-- The byte-update functions that `CrcUpdate.other` names (R19: the source gives the function in prose only). -/
opaque Config.otherCrcUpdate : Nat → Crc → Byte → Crc

/-! The free values. None of them has a body, so nothing can be proved of what they are: a statement holds whatever
they are. Each is applied to `State.draws`, a counter that every draw advances (assumption 3). -/

/-- `draw_byte()`: the code of an empty NACK (R26, R182, decision D10). -/
opaque Config.drawByte : Nat → Byte

/-- `RX_KIND` after init (R34, R55: unspecified). -/
opaque Config.freeRxKind : Nat → Kind

/-- `RX_LC` after init (R36, R55: unspecified). -/
opaque Config.freeRxLc : Nat → LenClass

/-- `RX_LEN` after init, in its legal range 0..768 (R37, R55: unspecified). -/
opaque Config.freeRxLen : Nat → Fin 769

/-- `RX_COUNT` after init, in its legal range 0..768 (R38, R55: unspecified). -/
opaque Config.freeRxCount : Nat → Fin 769

/-- `RX_CRC` after init (R39, R55: unspecified). -/
opaque Config.freeRxCrc : Nat → Crc

/-- `RX_CRC_HI` after init (R40, R55: unspecified). -/
opaque Config.freeRxCrcHi : Nat → Byte

/-- The bytes of `RX_BUF` after init, by address (R55, R61: unspecified; R250: the buffer comes with the configuration). -/
opaque Config.freeRxByte : Nat → Nat → Byte

/-- `TX_SEQ` after init (R42, R55: unspecified). -/
opaque Config.freeTxSeq : Nat → Seq

/-- `TX_PAYLOAD` after init, before its cut to at most 768 bytes (R42, R55: unspecified). -/
opaque Config.freeTxPayload : Nat → List Byte

/-- The first four bytes of `TX_FRAME` after init (R42, R55: unspecified, of length 4..773). -/
opaque Config.freeTxFrameHead : Nat → Vector Byte 4

/-- The rest of `TX_FRAME` after init, before its cut to at most 769 bytes (R42, R55: unspecified). -/
opaque Config.freeTxFrameTail : Nat → List Byte

/-- `TMR_RX.REM` after init (R47, R55: unspecified). -/
opaque Config.freeRxRem : Nat → Nat

/-- `TMR_RX.LAST` after init (R47, R55: unspecified). -/
opaque Config.freeRxLast : Nat → Nat

/-- `TMR_ACK.REM` after init (R47, R55: unspecified). -/
opaque Config.freeAckRem : Nat → Nat

/-- `TMR_ACK.LAST` after init (R47, R55: unspecified). -/
opaque Config.freeAckLast : Nat → Nat

end Sys2Proof
end

