-- ==== Sys2Proof/Syntax.lean ====
section
/-! DEFINITION. The instructions: one constructor per row of spec/opcode_table.json (spec/30_encoding.md R99, R104).
The eight stimulus codes are what the host can issue. The ten other rows are what the engine decodes on the wire: the
preamble byte, the four header kinds and the codes of a NACK; each carries what its own rule reads besides the state. -/

namespace Sys2Proof

/-- The arguments on the command interface (R99, R101). A stimulus reads those its row of R99 lists; the others are
ignored. -/
structure Operands where
  /-- `b`: the received byte. -/
  byte : Byte
  /-- `requires_ack`. -/
  requiresAck : Bool
  /-- `payload`: a byte list; a length above 768 is the fault PayloadTooLong of the instruction, not of the decoder. -/
  payload : List Byte
  /-- `t`: the sample of the host's `now()` (R10). -/
  time : Nat
  /-- The configuration that init carries (R32). -/
  config : Cfg
  deriving DecidableEq, Repr

/-- One stimulus as the host issues it: a 3-bit command code and the arguments (R99). -/
structure Stimulus where
  code : BitVec 3
  ops : Operands
  deriving DecidableEq, Repr

/-- The instructions of spec/opcode_table.json. -/
inductive Instr where
  /-- `receive_byte(b, t)`, code 0b000 (R120). -/
  | receiveByte (b : Byte) (t : Nat)
  /-- `tick(t)`, code 0b001 (R154). -/
  | tick (t : Nat)
  /-- `transmit(requires_ack, payload, t)`, code 0b010 (R174). -/
  | transmit (requiresAck : Bool) (payload : List Byte) (t : Nat)
  /-- `reply_ack(payload)`, code 0b011 (R203). -/
  | replyAck (payload : List Byte)
  /-- `cb_return()`, code 0b100 (R202). -/
  | cbReturn
  /-- `init(config)`, code 0b101 (R250). -/
  | init (config : Cfg)
  /-- The reserved command code 0b110 (R100). -/
  | reserved110
  /-- The reserved command code 0b111 (R100). -/
  | reserved111
  /-- The byte 0x5A on the wire (R122). -/
  | preamble (t : Nat)
  /-- A frame whose header is UNSYNC, complete and valid (R201). -/
  | hdrUnsync (seq : Seq) (len : LenClass)
  /-- A frame whose header is SYNC, complete and valid (R201). -/
  | hdrSync (seq : Seq) (len : LenClass)
  /-- A frame whose header is ACK, complete and valid at time `t` (R181). -/
  | hdrAck (seq : Seq) (len : LenClass) (t : Nat)
  /-- A frame whose header is NACK, complete and valid at time `t` (R182). -/
  | hdrNack (seq : Seq) (len : LenClass) (t : Nat)
  /-- A received NACK whose code is 1 (R182). -/
  | nackNotPreamble (t : Nat)
  /-- A received NACK whose code is 2 (R182). -/
  | nackBadCrc (t : Nat)
  /-- A received NACK whose code is 3 (R182). -/
  | nackRxTimeout (t : Nat)
  /-- A received NACK whose code is 4 (R182). -/
  | nackNotReady (t : Nat)
  /-- A received NACK with any other code: 0 or 5..255 (R93, R182). -/
  | nackOther (code : Byte) (t : Nat)
  deriving DecidableEq, Repr

end Sys2Proof
end

