-- ==== Sys2Proof/WellFormed.lean ====
section
/-! DEFINITION. Which terms of `Instr` stand for words of the table. The catch-all row NACK_other is "matched only when
no row above matches" (spec/opcode_table.json): its code is none of 1, 2, 3, 4. Every other term is some row's. A payload
above 768 bytes is a legal stimulus that faults (spec/30_encoding.md R101), so it is no matter of form. -/

namespace Sys2Proof

/-- The code of NACK_other is none of the four named codes (R89, R93). -/
def otherNackCode (code : Byte) : Bool :=
  !(code == 1 || code == 2 || code == 3 || code == 4)

/-- `i` is the instruction of some word of the table. -/
def WellFormed : Instr → Bool
  | .receiveByte _ _ => true
  | .tick _ => true
  | .transmit _ _ _ => true
  | .replyAck _ => true
  | .cbReturn => true
  | .init _ => true
  | .reserved110 => true
  | .reserved111 => true
  | .preamble _ => true
  | .hdrUnsync _ _ => true
  | .hdrSync _ _ => true
  | .hdrAck _ _ _ => true
  | .hdrNack _ _ _ => true
  | .nackNotPreamble _ => true
  | .nackBadCrc _ => true
  | .nackRxTimeout _ => true
  | .nackNotReady _ => true
  | .nackOther code _ => otherNackCode code

end Sys2Proof
end

