-- ==== Sys2Proof/Decode.lean ====
section
/-! DEFINITION. The decoder and the encoder (spec/30_encoding.md, spec/opcode_table.json). The table's rows stand in four
formats that share the same numbers: a stimulus code, a byte on the wire outside a frame, a header byte and the code of
a NACK. The decoder is therefore told the format, as the engine knows it from its control state (R31). -/

namespace Sys2Proof

/-! ### The constants of the encoding -/

/-- The preamble byte (R80). -/
def preambleByte : Byte := 0x5A

/-- The 2-bit code of a kind (R27, R82). -/
def Kind.code : Kind → BitVec 2
  | .unsync => 0
  | .sync => 1
  | .ack => 2
  | .nack => 3

/-- The kind of a 2-bit code: all four codes are used (R82). -/
def kindOfCode (c : BitVec 2) : Kind :=
  if c = 0 then .unsync else if c = 1 then .sync else if c = 2 then .ack else .nack

/-- `NotPreamble = 1` (R27, R89). -/
def codeNotPreamble : Byte := 1
/-- `BadCrc = 2` (R27, R89). -/
def codeBadCrc : Byte := 2
/-- `RxTimeout = 3` (R27, R89). -/
def codeRxTimeout : Byte := 3
/-- `NotReady = 4` (R27, R89). -/
def codeNotReady : Byte := 4

/-! ### The header byte (R65, R81) -/

/-- A header byte: `Ty` in bits 7:6, `Seq` in bits 5:2, `Len` in bits 1:0. -/
def headerByte (kind : Kind) (seq : Seq) (lc : LenClass) : Byte :=
  kind.code ++ seq ++ lc

/-- `Ty`: bits 7:6 of a header byte. -/
def headerKind (b : Byte) : Kind := kindOfCode (b.extractLsb' 6 2)

/-- `Seq`: bits 5:2 of a header byte. -/
def headerSeq (b : Byte) : Seq := b.extractLsb' 2 4

/-- `Len`: bits 1:0 of a header byte. -/
def headerLen (b : Byte) : LenClass := b.extractLsb' 0 2

/-! ### The decoder -/

/-- The format of a row of the table (R104). -/
inductive Format where
  /-- A command code of the command interface. -/
  | stimulus
  /-- A byte on the wire while no frame is in progress. -/
  | wireByte
  /-- The first byte after a preamble. -/
  | header
  /-- The first payload byte of a NACK. -/
  | nackCode
  deriving DecidableEq, Repr

/-- Why a word is none of the table's. -/
inductive DecodeError where
  /-- A command code has 3 bits (R99): the word is 8 or more. -/
  | notACommandCode
  /-- A byte outside a frame that is not the preamble is garbage (R29, R95): no row of the table. -/
  | garbageByte
  deriving DecidableEq, Repr

/-- An encoded instruction: the format, the word of at most 8 bits, and the arguments that come with it. -/
structure Coded where
  format : Format
  word : Byte
  ops : Operands
  deriving DecidableEq, Repr

/-- The eight command codes (R99, R100). -/
def decodeStimulus (c : Stimulus) : Instr :=
  if c.code = 0 then .receiveByte c.ops.byte c.ops.time
  else if c.code = 1 then .tick c.ops.time
  else if c.code = 2 then .transmit c.ops.requiresAck c.ops.payload c.ops.time
  else if c.code = 3 then .replyAck c.ops.payload
  else if c.code = 4 then .cbReturn
  else if c.code = 5 then .init c.ops.config
  else if c.code = 6 then .reserved110
  else .reserved111

/-- A header byte: every one of the 256 values is some kind's (R92, R97). -/
def decodeHeader (b : Byte) (t : Nat) : Instr :=
  match headerKind b with
  | .unsync => .hdrUnsync (headerSeq b) (headerLen b)
  | .sync => .hdrSync (headerSeq b) (headerLen b)
  | .ack => .hdrAck (headerSeq b) (headerLen b) t
  | .nack => .hdrNack (headerSeq b) (headerLen b) t

/-- A NACK's code: the four named codes, then the catch-all (R89, R93). -/
def decodeNackCode (b : Byte) (t : Nat) : Instr :=
  if b = codeNotPreamble then .nackNotPreamble t
  else if b = codeBadCrc then .nackBadCrc t
  else if b = codeRxTimeout then .nackRxTimeout t
  else if b = codeNotReady then .nackNotReady t
  else .nackOther b t

/-- The decoder: total, rejecting by name. -/
def decode (c : Coded) : Except DecodeError Instr :=
  match c.format with
  | .stimulus =>
    if c.word < 8 then .ok (decodeStimulus { code := c.word.setWidth 3, ops := c.ops })
    else .error .notACommandCode
  | .wireByte => if c.word = preambleByte then .ok (.preamble c.ops.time) else .error .garbageByte
  | .header => .ok (decodeHeader c.word c.ops.time)
  | .nackCode => .ok (decodeNackCode c.word c.ops.time)

/-! ### The encoder -/

/-- Arguments of zeros, an empty payload and the configuration of `INIT {}`: what a stimulus' unread arguments hold in
the encoder, and the operands of a word of the table that gives it none. -/
def blankOperands : Operands :=
  { byte := 0, requiresAck := false, payload := [], time := 0, config := defaultCfg }

/-- The format an instruction is encoded in (R104). -/
def formatOf : Instr → Format
  | .receiveByte _ _ | .tick _ | .transmit _ _ _ | .replyAck _ | .cbReturn | .init _
  | .reserved110 | .reserved111 => .stimulus
  | .preamble _ => .wireByte
  | .hdrUnsync _ _ | .hdrSync _ _ | .hdrAck _ _ _ | .hdrNack _ _ _ => .header
  | .nackNotPreamble _ | .nackBadCrc _ | .nackRxTimeout _ | .nackNotReady _ | .nackOther _ _ => .nackCode

/-- The word of an instruction: a command code (R99), the preamble, a header byte (R81) or a NACK's code (R89). -/
def wordOf : Instr → Byte
  | .receiveByte _ _ => 0
  | .tick _ => 1
  | .transmit _ _ _ => 2
  | .replyAck _ => 3
  | .cbReturn => 4
  | .init _ => 5
  | .reserved110 => 6
  | .reserved111 => 7
  | .preamble _ => preambleByte
  | .hdrUnsync seq len => headerByte .unsync seq len
  | .hdrSync seq len => headerByte .sync seq len
  | .hdrAck seq len _ => headerByte .ack seq len
  | .hdrNack seq len _ => headerByte .nack seq len
  | .nackNotPreamble _ => codeNotPreamble
  | .nackBadCrc _ => codeBadCrc
  | .nackRxTimeout _ => codeRxTimeout
  | .nackNotReady _ => codeNotReady
  | .nackOther code _ => code

/-- The arguments that come with an instruction's word. -/
def operandsOf : Instr → Operands
  | .receiveByte b t => { blankOperands with byte := b, time := t }
  | .tick t => { blankOperands with time := t }
  | .transmit requiresAck payload t =>
    { blankOperands with requiresAck := requiresAck, payload := payload, time := t }
  | .replyAck payload => { blankOperands with payload := payload }
  | .init config => { blankOperands with config := config }
  | .cbReturn | .reserved110 | .reserved111 | .hdrUnsync _ _ | .hdrSync _ _ => blankOperands
  | .preamble t | .hdrAck _ _ t | .hdrNack _ _ t | .nackNotPreamble t | .nackBadCrc t
  | .nackRxTimeout t | .nackNotReady t | .nackOther _ t => { blankOperands with time := t }

/-- The encoder. -/
def encode (i : Instr) : Coded :=
  { format := formatOf i, word := wordOf i, ops := operandsOf i }

/-- A stimulus as the host issues it, for an instruction of that format (R99). -/
def stimulusOf (i : Instr) : Stimulus :=
  { code := (wordOf i).setWidth 3, ops := operandsOf i }

/-! ### Words of the opcode table without a format -/

/-- The format read into a bare word of the table, which names none: below 8 a command code, else the preamble or a
header byte (assumption 5). A word of fewer than 8 bits is always a command code. -/
def tableFormat (nbits w : Nat) : Format :=
  if nbits < 8 ∨ w < 8 then .stimulus else if w = 0x5A then .wireByte else .header

/-- What the decoder reads from a bare word of the table, whose arguments are all zero. -/
def decodeTableWord (nbits w : Nat) : Option Instr :=
  if w < 256 then
    match decode { format := tableFormat nbits w, word := BitVec.ofNat 8 w, ops := blankOperands } with
    | .ok i => some i
    | .error _ => none
  else none

end Sys2Proof
end

