-- ==== Sys2Proof/Machine/State.lean ====
section
/-! DEFINITION. The state of the engine as plain data (spec/10_state.md R30 to R59), the reasons a step can stop, and the
state after reset (R55, R250). INVENTORY.md lists every field with its rule and its reset value. -/

namespace Sys2Proof.Machine

/-- The parser's position `RX_STATE`: seven values (R33). -/
inductive RxState where
  | expectPreamble | notPreamble | expectHeaderHigh | expectHeaderLow
  | receivingData | expectCrcHigh | expectCrcLow
  deriving DecidableEq, Repr

/-- The mode `CTX`: inside a packet-received callback or not (R50). -/
inductive Ctx where
  | idle | inRxCallback
  deriving DecidableEq, Repr

/-- The names of the sticky fault register `FAULT` (R52, R222). They are values of a register, not stops of the
model: a stimulus that raises one ends in a next state that holds it (R25). -/
inductive EngineFault where
  /-- `receive_byte`, `tick` or `transmit` inside a callback window. -/
  | reentrant
  /-- `transmit` or `reply_ack` with more than 768 bytes. -/
  | payloadTooLong
  /-- `cb_return` with no window open. -/
  | noWindow
  /-- `init` with a receive buffer below 768 bytes. -/
  | badConfig
  deriving DecidableEq, Repr

/-- The two logical timers (R46). -/
inductive TimerId where
  | rx | ack
  deriving DecidableEq, Repr

/-- A logical timer record (R46). -/
structure Timer where
  /-- `EN`: enabled. -/
  en : Bool
  /-- `REM`: "remaining_delta". -/
  rem : Nat
  /-- `LAST`: "last_update_instant". -/
  last : Nat
  deriving DecidableEq, Repr

/-- `PRIM`: the host's single-shot primitive as last commanded (R53). -/
inductive Prim where
  | idle
  | armed (deadline : Nat)
  deriving DecidableEq, Repr

/-- The output events (R24). -/
inductive Event where
  /-- `WIRE(b)` -/
  | wire (b : Byte)
  /-- `ARM(d)` -/
  | arm (d : Nat)
  /-- `CANCEL` -/
  | cancel
  /-- `PKTRX(kind, seq, payload)` -/
  | pktRx (kind : Kind) (seq : Seq) (payload : List Byte)
  /-- `ACKRX(seq, payload)` -/
  | ackRx (seq : Seq) (payload : List Byte)
  /-- `TIMEOUT(seq, payload)` -/
  | timeout (seq : Seq) (payload : List Byte)
  /-- `NONPROTO(b)` -/
  | nonProto (b : Byte)
  deriving DecidableEq, Repr

/-- The result a stimulus returns to its caller (R25, R99). -/
inductive Result where
  | ok | busy | invalidState
  deriving DecidableEq, Repr

/-- A byte memory: a list of (address, byte) pairs in the canonical form of `Memory.wf` (Machine/Ops.lean). -/
abbrev Memory := List Host.Cell

/-- What the bytes of `RX_BUF` that the list does not name hold (R55: unspecified; assumption 4). -/
inductive Fill where
  /-- Zero: the contents that State.reset names. -/
  | zero
  /-- The free contents that came with the init which drew at this count. -/
  | drawn (n : Nat)
  deriving DecidableEq, Repr

/-- The state of one engine (R4, R55). -/
structure State where
  /-- `CFG.*` (R32). -/
  cfg : Cfg
  /-- `CRC_UPDATE` (R19): a parameter of the engine that no instruction writes. -/
  crcUpdate : CrcUpdate
  /-- Whether the first init has happened (R224: before it every other stimulus is refused). -/
  inited : Bool
  /-- `RX_STATE` (R33). -/
  rxState : RxState
  /-- `RX_KIND` (R34). -/
  rxKind : Kind
  /-- `RX_SEQ` (R35). -/
  rxSeq : Seq
  /-- `RX_LC` (R36). -/
  rxLc : LenClass
  /-- `RX_LEN`, a natural in 0..768 (R37). -/
  rxLen : Nat
  /-- `RX_COUNT`, a natural in 0..768 (R38). -/
  rxCount : Nat
  /-- `RX_CRC` (R39). -/
  rxCrc : Crc
  /-- `RX_CRC_HI` (R40). -/
  rxCrcHi : Byte
  /-- `RX_BUF[0..CFG.RX_BUF_SIZE-1]` (R61): the bytes stored since init. -/
  rxBuf : Memory
  /-- `RX_BUF`: what every other byte of it holds (R55). -/
  rxBufFill : Fill
  /-- `TX_VALID` (R41). -/
  txValid : Bool
  /-- `TX_SEQ` (R42). -/
  txSeq : Seq
  /-- `TX_PAYLOAD` (R42). -/
  txPayload : List Byte
  /-- `TX_FRAME` (R42). -/
  txFrame : List Byte
  /-- `TX_SEQUENCE` (R43). -/
  txSequence : Seq
  /-- `AWAITING_ACK` (R44). -/
  awaitingAck : Bool
  /-- `RETRY_COUNT` (R45). -/
  retryCount : Nat
  /-- `TMR_RX` (R46). -/
  tmrRx : Timer
  /-- `TMR_ACK` (R46). -/
  tmrAck : Timer
  /-- `CTX` (R50). -/
  ctx : Ctx
  /-- `RX_USER_ACKED` (R51). -/
  rxUserAcked : Bool
  /-- `FAULT` (R52). -/
  fault : Option EngineFault
  /-- `PRIM` (R53). -/
  prim : Prim
  /-- The output trace, oldest event first (R24). -/
  trace : List Event
  /-- What the last stimulus that ended returned to its caller; none where it returns nothing (R99, decision D40). -/
  result : Option Result
  /-- The stimuli that the host has still to deliver, the next one first (R226, R232). -/
  pending : List Stimulus
  /-- The model's own: how many times free values have been drawn (assumption 3). -/
  draws : Nat
  deriving DecidableEq, Repr

/-- Why the machine stops. It is safe: the engine of the spec never gets there (R61), so nothing that it does is left
out. -/
inductive Fault where
  /-- An index at or above `CFG.RX_BUF_SIZE`: the buffer has no such byte (R61). Raised by `receive_byte` storing a
  payload byte (R127) and by the dispatch of a frame reading the payload (R200). Safe. -/
  | rxBufOutOfRange (addr : Nat)
  deriving DecidableEq, Repr

/-- Why a stimulus has no step at all (R224). -/
inductive Refusal where
  /-- No meaning has been written for the instruction. Raised by no arm of `exec` now. Safe. -/
  | notModelled (mnemonic : String)
  /-- `FAULT` holds a fault: every stimulus is refused (R52, R224). Raised by every instruction but the reserved ones.
  Safe: it is the spec's own refusal. -/
  | engineFaulted (f : EngineFault)
  /-- A stimulus other than init before the first init (R224, decision D30). Safe: the spec's own refusal. -/
  | beforeInit
  /-- The reserved command codes 0b110 and 0b111 (R100, R224). Safe: the spec's own refusal. -/
  | reservedCode (code : BitVec 3)
  deriving DecidableEq, Repr

/-- What one instruction answers. -/
abbrev Outcome := Host.Outcome State Fault Refusal

/-- The machine right after reset, which is right after `INIT {}` (R250, R252): the values of R55 and the configuration
of the spec's start state (assumption 2). The registers that R55 leaves unspecified, every byte of `RX_BUF` among them,
hold zero, UNSYNC, the empty list or, for `TX_FRAME`, its least length of zeros (assumption 1), `CRC_UPDATE` has its
default (R19), `draws` is zero (assumption 3), and the host has delivered nothing. -/
def State.reset : State :=
  { cfg := defaultCfg, crcUpdate := .reconstructed, inited := true,
    rxState := .expectPreamble, rxKind := .unsync, rxSeq := 0, rxLc := 0, rxLen := 0, rxCount := 0,
    rxCrc := 0, rxCrcHi := 0, rxBuf := [], rxBufFill := .zero,
    txValid := false, txSeq := 0, txPayload := [], txFrame := List.replicate 4 0, txSequence := 1,
    awaitingAck := false, retryCount := 0,
    tmrRx := { en := false, rem := 0, last := 0 }, tmrAck := { en := false, rem := 0, last := 0 },
    ctx := .idle, rxUserAcked := false, fault := none, prim := .idle,
    trace := [], result := none, pending := [], draws := 0 }

/-- The machine before its first init: only init is accepted (R224, decision D30). -/
def State.powerOn : State := { State.reset with inited := false }

end Sys2Proof.Machine
end

