-- ==== Sys2Proof/Machine/Flags.lean ====
section
/-! DEFINITION. The conditions the rules compute from the Boolean status registers. The engine has no condition codes
(spec/10_state.md R58): its status registers are `AWAITING_ACK`, `RX_USER_ACKED`, `TX_VALID` and the timer enables, each
written only by the rules that name it. -/

namespace Sys2Proof.Machine

/-- A timer fires in a tick: enabled, and nothing of its delta remains (R154). -/
def Timer.fires (tm : Timer) : Bool := tm.en && tm.rem == 0

/-- `requires_ack == 1 and AWAITING_ACK == 1` (R175). -/
def txBusy (requiresAck : Bool) (s : State) : Bool := requiresAck && s.awaitingAck

/-- A received ACK or NACK is for the outstanding packet (R181, R182). -/
def matchesOutstanding (seq : Seq) (s : State) : Bool := s.awaitingAck && seq == s.txSeq

/-- The next attempt exceeds the retry limit: `RETRY_COUNT + 1 > CFG.MAX_RETRIES` (R178). -/
def retrySpent (s : State) : Bool := decide (s.cfg.maxRetries < s.retryCount + 1)

/-- The transient NACK codes: the running ack timer will retry (R182). -/
def transientCode (code : Byte) : Bool := code == codeNotPreamble || code == codeNotReady

/-- A callback that returns is answered with an auto-ACK: a SYNC frame that the application did not answer (R202). -/
def autoAckDue (s : State) : Bool := s.rxKind == .sync && !s.rxUserAcked

/-- The parser is inside a frame: the states in which the receive timer runs (R48). -/
def RxState.midFrame : RxState → Bool
  | .expectPreamble | .notPreamble => false
  | .expectHeaderHigh | .expectHeaderLow | .receivingData | .expectCrcHigh | .expectCrcLow => true

end Sys2Proof.Machine
end

