-- ==== Sys2Proof/Machine/Crc.lean ====
section
/-! DEFINITION. The CRC engine (spec/40_crc.md R110 to R112): a pure function unit with no state of its own. -/

namespace Sys2Proof.Machine

/-- `crc16_update` (R110): swap the two bytes, xor in the data byte, then the three shift-xor lines. -/
def crc16Update (crc : Crc) (byte : Byte) : Crc :=
  let swapped : Crc := crc.extractLsb' 0 8 ++ crc.extractLsb' 8 8
  let c := swapped ^^^ byte.setWidth 16
  let c := c ^^^ ((c.extractLsb' 0 8) >>> 4).setWidth 16
  let c := c ^^^ (c <<< 12)
  c ^^^ ((c.extractLsb' 0 8).setWidth 16 <<< 5)

/-- The byte-update function that a value of the parameter `CRC_UPDATE` stands for (R19, decision D5). The engine computes
every CRC with the parameter it holds, so a claim about a CRC value names the parameter (assumption 6). -/
def crcUpdate (update : CrcUpdate) : Crc → Byte → Crc :=
  match update with
  | .reconstructed => crc16Update
  | .other id => Config.otherCrcUpdate id

/-- `crc_over`: the update folded over a byte run (R111). -/
def crcOver (update : CrcUpdate) (initial : Crc) (bytes : List Byte) : Crc := bytes.foldl (crcUpdate update) initial

/-- The initial value of every frame (R112). -/
def crcInit : Crc := 0xFFFF

/-- One of the eight rounds of the bit-serial update with polynomial 0x1021 (R113). -/
def crcBitRound (c : Crc) : Crc := if c.getLsbD 15 then (c <<< 1) ^^^ 0x1021 else c <<< 1

/-- The bit-serial, MSB-first update that R113 compares `crc16_update` with. The engine does not use it. -/
def crcBitSerial (crc : Crc) (byte : Byte) : Crc :=
  Nat.iterate crcBitRound 8 (crc ^^^ (byte.setWidth 16 <<< 8))

end Sys2Proof.Machine
end

