-- ==== Sys2Proof/Machine/Operands.lean ====
section
/-! DEFINITION. The operand forms: the length fields of a frame and their assembly (spec/30_encoding.md R84, R85;
spec/43_tx_retry.md R170), and the packet encoder (R171). -/

namespace Sys2Proof.Machine

/-- `(Len - 1) * 256 + LenByte + 1` (R84, R126). It is used only where `Len` is 1, 2 or 3. -/
def assembleLength (lc : LenClass) (lenByte : Byte) : Nat := (lc.toNat - 1) * 256 + lenByte.toNat + 1

/-- `length_fields(n)`: the length-class and the optional LenByte of a payload of n bytes, 0 ≤ n ≤ 768 (R85, R170). -/
def lengthFields (n : Nat) : LenClass × List Byte :=
  if n = 0 then (0, []) else (BitVec.ofNat 2 ((n - 1) >>> 8 + 1), [BitVec.ofNat 8 (n - 1)])

/-- The bytes the CRC of a frame covers: header, optional LenByte, payload (R86, R171). -/
def coveredBytes (kind : Kind) (seq : Seq) (payload : List Byte) : List Byte :=
  let (lc, lb) := lengthFields payload.length
  headerByte kind seq lc :: (lb ++ payload)

/-- `CrcHi` and `CrcLo`, the high byte first (R66, R87). -/
def trailer (c : Crc) : List Byte := [c.extractLsb' 8 8, c.extractLsb' 0 8]

/-- `encode_frame(kind, seq, payload)`: the packet encoder (R171), with the parameter `CRC_UPDATE` (R19). -/
def encodeFrame (update : CrcUpdate) (kind : Kind) (seq : Seq) (payload : List Byte) : List Byte :=
  preambleByte :: (coveredBytes kind seq payload ++ trailer (crcOver update crcInit (coveredBytes kind seq payload)))

/-- `{RX_CRC_HI, b}`: the received CRC (R66, R129). -/
def receivedCrc (hi lo : Byte) : Crc := hi ++ lo

/-- `next_seq(s)`: wraps 15 to 1, skipping 0 (R172). -/
def nextSeq (s : Seq) : Seq := if s = 15 then 1 else s + 1

end Sys2Proof.Machine
end

