-- ==== Sys2Proof/Machine/Ops.lean ====
section
/-! DEFINITION. The named operations over memory, the trace and the registers; the refusal and mode checks every
stimulus begins with (spec/60_exceptions.md R223 to R225); raising a model fault (spec/00_scope.md R25); and the callback
window, the engine's only counterpart of trap entry and return (R228). -/

namespace Sys2Proof.Machine

/-! ### The receive buffer (R61, R62) -/

/-- What an address that is not listed holds (R55, assumptions 3 and 4). -/
def unlistedByte (fill : Fill) (a : Nat) : Byte :=
  match fill with
  | .zero => 0
  | .drawn n => Config.freeRxByte n a

/-- A byte is what an address that is not listed is known to hold: it needs no entry. -/
def isBlank (fill : Fill) (v : Byte) : Bool :=
  match fill with
  | .zero => v == 0
  | .drawn _ => false

/-- The byte at an address. -/
def Memory.read (fill : Fill) : Memory → Nat → Byte
  | [], a => unlistedByte fill a
  | c :: m, a => if a = c.1 then c.2 else Memory.read fill m a

/-- The list without an address. -/
def Memory.erase (m : Memory) (a : Nat) : Memory := m.filter fun c => c.1 != a

/-- The list with an entry, keeping the addresses strictly rising. -/
def Memory.insert : Memory → Nat → Byte → Memory
  | [], a, v => [(a, v)]
  | c :: m, a, v =>
    if a < c.1 then (a, v) :: c :: m
    else if a = c.1 then (a, v) :: m
    else c :: Memory.insert m a v

/-- Writing one byte, keeping the canonical form. -/
def Memory.write (fill : Fill) (m : Memory) (a : Nat) (v : Byte) : Memory :=
  if isBlank fill v then Memory.erase m a else Memory.insert m a v

/-- Strictly rising addresses. -/
def Memory.rising : Memory → Bool
  | [] => true
  | c :: m => m.all (fun d => decide (c.1 < d.1)) && Memory.rising m

/-- The canonical form: addresses strictly rising, and no entry that an address not listed is known to hold. -/
def Memory.wf (fill : Fill) (m : Memory) : Bool := Memory.rising m && m.all fun c => !isBlank fill c.2

/-- The byte of `RX_BUF` at an address. -/
def bufByte (s : State) (a : Nat) : Byte := Memory.read s.rxBufFill s.rxBuf a

/-- `MemRead(RX_BUF, a, 1)`: the byte, or why there is none (R23, R61). -/
def readBuf (s : State) (a : Nat) : Except Fault Byte :=
  if a < s.cfg.rxBufSize then .ok (bufByte s a) else .error (.rxBufOutOfRange a)

/-- `n` bytes of the receive buffer from address `a` on. -/
def readBufFrom (s : State) : Nat → Nat → Except Fault (List Byte)
  | _, 0 => .ok []
  | a, n + 1 =>
    match readBuf s a with
    | .ok v =>
      match readBufFrom s (a + 1) n with
      | .ok vs => .ok (v :: vs)
      | .error f => .error f
    | .error f => .error f

/-- The payload of the frame: a copy of `RX_BUF[0..RX_LEN-1]` (R63, R200). -/
def rxPayload (s : State) : Except Fault (List Byte) := readBufFrom s 0 s.rxLen

/-- Goes on with the payload of the frame, or stops where the buffer ends before it (R61, R63, R200). -/
def withPayload (s : State) (k : List Byte → Outcome) : Outcome :=
  match rxPayload s with
  | .ok p => k p
  | .error f => .fault f

/-! ### Output and results -/

/-- `emit E` (R24). -/
def emit (e : Event) (s : State) : State := { s with trace := s.trace ++ [e] }

/-- `emit_frame(bytes)`: one `WIRE` event per byte, in order (R24). -/
def emitFrame (bytes : List Byte) (s : State) : State := { s with trace := s.trace ++ bytes.map Event.wire }

/-- The end of a stimulus, with what it returns to its caller (R25, R99). -/
def finish (r : Option Result) (s : State) : Outcome := .next { s with result := r }

/-- `send_frame(kind, seq, payload)` (R173). -/
def sendFrame (kind : Kind) (seq : Seq) (payload : List Byte) (s : State) : State :=
  emitFrame (encodeFrame s.crcUpdate kind seq payload) s

/-- `send_nack(code, seq)` (R130). -/
def sendNack (code : Byte) (seq : Seq) (s : State) : State := sendFrame .nack seq [code] s

/-! ### Taking a fault, refusing, and the mode check -/

/-- `raise Fault(F)`: records the fault and leaves every other piece of state as it was (R25, R222). -/
def raise (f : EngineFault) (s : State) : Outcome := .next { s with fault := some f }

/-- Refusal after a fault (R224): no step at all. -/
def unlessFaulted (s : State) (k : Outcome) : Outcome :=
  match s.fault with
  | some f => .refused (.engineFaulted f)
  | none => k

/-- The refusals of every stimulus but init: after a fault, and before the first init (R224). -/
def whenAccepting (s : State) (k : Outcome) : Outcome :=
  unlessFaulted s (if s.inited then k else .refused .beforeInit)

/-- The checks of `receive_byte`, `tick` and `transmit`: refusal, then the mode (R223, R225). -/
def whenIdle (s : State) (k : Outcome) : Outcome :=
  whenAccepting s (if s.ctx = .idle then k else raise .reentrant s)

/-! ### The callback window (R201, R202, R228) -/

/-- `open_window(kind, seq, payload)` (R201). -/
def openWindow (kind : Kind) (seq : Seq) (payload : List Byte) (s : State) : State :=
  emit (.pktRx kind seq payload) { s with rxUserAcked := false, ctx := .inRxCallback }

/-- The return from the callback: the mode goes back to Idle, then the auto-ACK (R202). -/
def closeWindow (s : State) : State :=
  let t := { s with ctx := .idle }
  if autoAckDue t then sendFrame .ack t.rxSeq [] t else t

end Sys2Proof.Machine
end

