-- ==== Sys2Proof/Machine/System.lean ====
section
/-! DEFINITION. init (spec/70_reset_and_hazards.md R250, R251) and the reserved command codes (spec/30_encoding.md R100). -/

namespace Sys2Proof.Machine

/-- The registers that init leaves unspecified, each at its free value (R55, R250, assumption 3). The receive buffer
comes with the configuration, and every byte of it is a free value (assumption 4). -/
def leaveUnspecified (s : State) : State :=
  { s with
    rxKind := Config.freeRxKind s.draws
    rxLc := Config.freeRxLc s.draws
    rxLen := (Config.freeRxLen s.draws).val
    rxCount := (Config.freeRxCount s.draws).val
    rxCrc := Config.freeRxCrc s.draws
    rxCrcHi := Config.freeRxCrcHi s.draws
    rxBuf := []
    rxBufFill := .drawn s.draws
    txSeq := Config.freeTxSeq s.draws
    txPayload := (Config.freeTxPayload s.draws).take maxPayload
    txFrame := (Config.freeTxFrameHead s.draws).toList ++ (Config.freeTxFrameTail s.draws).take (maxPayload + 1)
    tmrRx := { en := s.tmrRx.en, rem := Config.freeRxRem s.draws, last := Config.freeRxLast s.draws }
    tmrAck := { en := s.tmrAck.en, rem := Config.freeAckRem s.draws, last := Config.freeAckLast s.draws }
    draws := s.draws + 1 }

/-- What init writes (R250). `PRIM` stays: init neither arms nor cancels the host's timer (R253, assumption 8). -/
def runInit (config : Cfg) (s : State) : State :=
  let s := leaveUnspecified s
  { s with
    cfg := config, inited := true
    rxState := .expectPreamble, rxSeq := 0
    txValid := false, txSequence := 1, awaitingAck := false, retryCount := 0
    tmrRx := { s.tmrRx with en := false }, tmrAck := { s.tmrAck with en := false }
    rxUserAcked := false, ctx := .idle }

/-- `init(config)` (R250, R251). -/
def execInit (config : Cfg) (s : State) : Outcome :=
  unlessFaulted s
    (if config.rxBufSize < maxPayload then raise .badConfig s else finish none (runInit config s))

/-- The reserved command code 0b110: no step of the engine takes it (R100, R224). -/
def execReserved110 (_s : State) : Outcome := .refused (.reservedCode 6)

/-- The reserved command code 0b111: no step of the engine takes it (R100, R224). -/
def execReserved111 (_s : State) : Outcome := .refused (.reservedCode 7)

end Sys2Proof.Machine
end

