-- ==== Sys2Proof/Machine/TimerMux.lean ====
section
/-! DEFINITION. The timer multiplexer and deadline arbiter (spec/42_timer_mux.md R150 to R153). The tick stimulus is in
Tick.lean. -/

namespace Sys2Proof.Machine

/-- The record of a logical timer (R46). -/
def timer (T : TimerId) (s : State) : Timer :=
  match T with
  | .rx => s.tmrRx
  | .ack => s.tmrAck

/-- Writes the record of one logical timer. -/
def setTimer (T : TimerId) (tm : Timer) (s : State) : State :=
  { s with tmrRx := if T = .rx then tm else s.tmrRx, tmrAck := if T = .ack then tm else s.tmrAck }

/-- The elapsed-time accounting of one record (R150). -/
def Timer.accrue (t : Nat) (tm : Timer) : Timer := { tm with rem := tm.rem - (t - tm.last), last := t }

/-- `accrue(t)`: both records, enabled or not (R150). -/
def accrue (t : Nat) (s : State) : State :=
  { s with tmrRx := s.tmrRx.accrue t, tmrAck := s.tmrAck.accrue t }

/-- The minimum remaining delta of the enabled timers, if one is enabled (R151). -/
def soonest (s : State) : Option Nat :=
  if s.tmrRx.en then
    if s.tmrAck.en then some (min s.tmrRx.rem s.tmrAck.rem) else some s.tmrRx.rem
  else if s.tmrAck.en then some s.tmrAck.rem else none

/-- The timer command of a reschedule (R151). -/
def deadlineEvent : Option Nat → Event
  | some d => .arm d
  | none => .cancel

/-- What the primitive holds after that command, given at time `t` (R53, R151). -/
def deadlinePrim (t : Nat) : Option Nat → Prim
  | some d => .armed (t + d)
  | none => .idle

/-- `reschedule(t)`: the deadline arbiter (R151). -/
def reschedule (t : Nat) (s : State) : State :=
  { s with trace := s.trace ++ [deadlineEvent (soonest s)], prim := deadlinePrim t (soonest s) }

/-- `mux_set(T, d, t)` (R152). -/
def muxSet (T : TimerId) (d t : Nat) (s : State) : State :=
  let s := accrue t s
  reschedule t (setTimer T { timer T s with en := true, rem := d } s)

/-- `mux_cancel(T, t)` (R153). -/
def muxCancel (T : TimerId) (t : Nat) (s : State) : State :=
  let s := accrue t s
  reschedule t (setTimer T { timer T s with en := false } s)

end Sys2Proof.Machine
end

