-- ==== Sys2Proof/Machine/TxRetry.lean ====
section
/-! DEFINITION. The TX/retry engine and the ACK/NACK correlator (spec/43_tx_retry.md R174 to R182): the meaning of
`transmit` and of the NACK-code rows of the table. -/

namespace Sys2Proof.Machine

/-! ### Retry (R178) -/

/-- The outstanding packet is settled, acknowledged or abandoned: `AWAITING_ACK <- 0` and the next sequence number
(R178, R181). -/
def settle (s : State) : State := { s with awaitingAck := false, txSequence := nextSeq s.txSequence }

/-- Abandonment: settles the packet and reports it (R178). -/
def abandon (s : State) : State := emit (.timeout s.txSeq s.txPayload) (settle s)

/-- Retransmission of the identical frame bytes, and a new ack-timeout (R178). -/
def retransmit (t : Nat) (s : State) : State := muxSet .ack s.cfg.retryDelay t (emitFrame s.txFrame s)

/-- `ack_timeout_trigger(t)` (R178). -/
def ackTimeoutTrigger (t : Nat) (s : State) : State :=
  if s.awaitingAck then
    let counted := { s with retryCount := s.retryCount + 1 }
    if retrySpent s then abandon counted else retransmit t counted
  else s

/-! ### The correlator (R181, R182) -/

/-- `ack_received(seq, payload, t)` (R181). -/
def ackReceived (seq : Seq) (payload : List Byte) (t : Nat) (s : State) : State :=
  if matchesOutstanding seq s then emit (.ackRx seq payload) (settle (muxCancel .ack t s)) else s

/-- What a NACK for the outstanding packet does by its code: a transient code waits for the running ack timer, any other
code retransmits now (R182). -/
def nackByCode (code : Byte) (t : Nat) (s : State) : State :=
  if transientCode code then s else ackTimeoutTrigger t (muxCancel .ack t s)

/-- A received NACK that carries a code byte (R182). -/
def nackCodeReceived (seq : Seq) (code : Byte) (t : Nat) (s : State) : State :=
  if matchesOutstanding seq s then nackByCode code t s else s

/-- A received NACK with no payload: its code is drawn afresh, and only where it is looked at (R182, decision D10). -/
def emptyNackReceived (seq : Seq) (t : Nat) (s : State) : State :=
  if matchesOutstanding seq s then
    nackByCode (Config.drawByte s.draws) t { s with draws := s.draws + 1 }
  else s

/-- `nack_received(seq, payload, t)` (R182): only byte 0 of the payload is read. -/
def nackReceived (seq : Seq) (payload : List Byte) (t : Nat) (s : State) : State :=
  match payload with
  | code :: _ => nackCodeReceived seq code t s
  | [] => emptyNackReceived seq t s

/-! ### transmit (R174 to R176) -/

/-- The TX store and the retry state of a packet just sent (R176). -/
def storeTx (payload : List Byte) (s : State) : State :=
  { s with txSeq := s.txSequence, txPayload := payload,
           txFrame := encodeFrame s.crcUpdate .sync s.txSequence payload, txValid := true,
           awaitingAck := true, retryCount := 0 }

/-- The synchronized send path (R176). -/
def sendSync (payload : List Byte) (t : Nat) (s : State) : State :=
  muxSet .ack s.cfg.retryDelay t (storeTx payload (sendFrame .sync s.txSequence payload s))

/-- The unsynchronized send path: it writes no state and arms no timer (R176). -/
def sendUnsync (payload : List Byte) (s : State) : State := sendFrame .unsync 0 payload s

/-- `transmit(requires_ack, payload, t)` (R174, R175, R176). -/
def execTransmit (requiresAck : Bool) (payload : List Byte) (t : Nat) (s : State) : Outcome :=
  whenIdle s
    (if maxPayload < payload.length then raise .payloadTooLong s
     else if txBusy requiresAck s then finish (some .busy) s
     else finish (some .ok) (if requiresAck then sendSync payload t s else sendUnsync payload s))

/-! ### The rows of the NACK codes (R182)

Each is a received NACK with that code for the sequence in `RX_SEQ`, at time `t`. It comes with a received frame, so it
passes the checks of `receive_byte` (assumption 7). -/

/-- A received NACK with a given code, as an instruction of its own. -/
def execNackCode (code : Byte) (t : Nat) (s : State) : Outcome :=
  whenIdle s (finish none (nackCodeReceived s.rxSeq code t s))

/-- NACK_NotPreamble: code 1, transient (R89, R182). -/
def execNackNotPreamble (t : Nat) (s : State) : Outcome := execNackCode codeNotPreamble t s

/-- NACK_BadCrc: code 2, immediate (R89, R182). -/
def execNackBadCrc (t : Nat) (s : State) : Outcome := execNackCode codeBadCrc t s

/-- NACK_RxTimeout: code 3, immediate (R89, R182). -/
def execNackRxTimeout (t : Nat) (s : State) : Outcome := execNackCode codeRxTimeout t s

/-- NACK_NotReady: code 4, transient (R89, R182). -/
def execNackNotReady (t : Nat) (s : State) : Outcome := execNackCode codeNotReady t s

/-- NACK_other: any other code, immediate (R93, R182). -/
def execNackOther (code : Byte) (t : Nat) (s : State) : Outcome := execNackCode code t s

end Sys2Proof.Machine
end

