-- ==== Sys2Proof/Machine/RxDispatch.lean ====
section
/-! DEFINITION. RX dispatch (spec/44_rx_dispatch.md R200 to R203): the meanings of `cb_return`, `reply_ack` and the four
header rows of the table. -/

namespace Sys2Proof.Machine

/-- The fields of a header, as its byte leaves them in the parser's registers: a length-class of 0 is a payload of no
bytes (R125). -/
def latchHeader (kind : Kind) (seq : Seq) (lc : LenClass) (s : State) : State :=
  { s with rxKind := kind, rxSeq := seq, rxLc := lc,
           rxLen := if lc = 0 then 0 else s.rxLen, rxCount := if lc = 0 then 0 else s.rxCount }

/-- What a valid frame does by its kind, given its payload (R200). -/
def deliver (payload : List Byte) (t : Nat) (s : State) : State :=
  match s.rxKind with
  | .unsync => openWindow .unsync s.rxSeq payload s
  | .sync => openWindow .sync s.rxSeq payload s
  | .ack => ackReceived s.rxSeq payload t s
  | .nack => nackReceived s.rxSeq payload t s

/-- `dispatch(t)` (R200): the end of a received frame whose CRC matched. -/
def dispatch (t : Nat) (s : State) : Outcome :=
  withPayload s (fun payload => finish none (deliver payload t s))

/-! ### The header rows (R181, R182, R201)

Each is a complete, valid frame with that header, dispatched: the header's fields stand in the parser's registers (R125)
and the payload in the receive buffer. It comes with a received byte, so it passes the checks of `receive_byte`
(assumption 7). -/

/-- HDR_UNSYNC: opens a window (R201). -/
def execHdrUnsync (seq : Seq) (len : LenClass) (s : State) : Outcome :=
  whenIdle s
    (withPayload (latchHeader .unsync seq len s) fun payload =>
      finish none (openWindow .unsync seq payload (latchHeader .unsync seq len s)))

/-- HDR_SYNC: opens a window, whose return owes the peer an ACK (R201, R202). -/
def execHdrSync (seq : Seq) (len : LenClass) (s : State) : Outcome :=
  whenIdle s
    (withPayload (latchHeader .sync seq len s) fun payload =>
      finish none (openWindow .sync seq payload (latchHeader .sync seq len s)))

/-- HDR_ACK: the correlator's `ack_received` (R181). -/
def execHdrAck (seq : Seq) (len : LenClass) (t : Nat) (s : State) : Outcome :=
  whenIdle s
    (withPayload (latchHeader .ack seq len s) fun payload =>
      finish none (ackReceived seq payload t (latchHeader .ack seq len s)))

/-- HDR_NACK: the correlator's `nack_received` (R182). -/
def execHdrNack (seq : Seq) (len : LenClass) (t : Nat) (s : State) : Outcome :=
  whenIdle s
    (withPayload (latchHeader .nack seq len s) fun payload =>
      finish none (nackReceived seq payload t (latchHeader .nack seq len s)))

/-! ### The stimuli of the callback window -/

/-- `cb_return()` (R202). -/
def execCbReturn (s : State) : Outcome :=
  whenAccepting s
    (if s.ctx = .inRxCallback then finish none (closeWindow s) else raise .noWindow s)

/-- The explicit reply: a plain ACK with the frame's sequence, and the auto-ACK suppressed (R203). -/
def sendReply (payload : List Byte) (s : State) : State :=
  { sendFrame .ack s.rxSeq payload s with rxUserAcked := true }

/-- `reply_ack(payload)` (R203): `InvalidState` outside a window is decided before the length (R225). -/
def execReplyAck (payload : List Byte) (s : State) : Outcome :=
  whenAccepting s
    (if s.ctx = .inRxCallback then
      if maxPayload < payload.length then raise .payloadTooLong s
      else finish (some .ok) (sendReply payload s)
     else finish (some .invalidState) s)

end Sys2Proof.Machine
end

