-- ==== Sys2Proof/Machine/FrameParser.lean ====
section
/-! DEFINITION. The byte-wise frame parser (spec/41_frame_parser.md R120 to R131): the meanings of `receive_byte` and of
the PREAMBLE row. -/

namespace Sys2Proof.Machine

/-- `accept_preamble(t)` (R122). -/
def acceptPreamble (t : Nat) (s : State) : State :=
  { muxSet .rx s.cfg.rxTimeout t s with rxSeq := 0, rxCrc := crcInit, rxState := .expectHeaderHigh }

/-- `forward_nonprotocol(b)` (R123). -/
def forwardNonprotocol (b : Byte) (s : State) : State :=
  if s.cfg.hasNonprotocolCb then emit (.nonProto b) s else s

/-- A preamble after garbage: the garbage NACK first, if configured (R124). -/
def preambleAfterGarbage (t : Nat) (s : State) : State :=
  acceptPreamble t (if s.cfg.nackGarbage then sendNack codeNotPreamble 0 s else s)

/-- State `ExpectPreamble` (R121). -/
def inExpectPreamble (b : Byte) (t : Nat) (s : State) : State :=
  if b = preambleByte then acceptPreamble t s
  else forwardNonprotocol b { s with rxState := .notPreamble }

/-- State `NotPreamble` (R124). -/
def inNotPreamble (b : Byte) (t : Nat) (s : State) : State :=
  if b = preambleByte then preambleAfterGarbage t s else forwardNonprotocol b s

/-- Folds one byte into the running CRC (R112). -/
def foldCrc (b : Byte) (s : State) : State := { s with rxCrc := crcUpdate s.crcUpdate s.rxCrc b }

/-- State `ExpectHeaderHigh` (R125). -/
def inExpectHeaderHigh (b : Byte) (s : State) : State :=
  { foldCrc b (latchHeader (headerKind b) (headerSeq b) (headerLen b) s) with
    rxState := if headerLen b = 0 then .expectCrcHigh else .expectHeaderLow }

/-- State `ExpectHeaderLow` (R126). -/
def inExpectHeaderLow (b : Byte) (s : State) : State :=
  { foldCrc b s with rxLen := assembleLength s.rxLc b, rxCount := 0, rxState := .receivingData }

/-- A payload byte stored at `RX_COUNT` (R127). -/
def storePayloadByte (b : Byte) (s : State) : State :=
  { foldCrc b s with
    rxBuf := Memory.write s.rxBufFill s.rxBuf s.rxCount b
    rxCount := s.rxCount + 1
    rxState := if s.rxCount + 1 = s.rxLen then .expectCrcHigh else .receivingData }

/-- State `ReceivingData` (R127): the write is in bounds in every state that a run reaches (R61). -/
def inReceivingData (b : Byte) (s : State) : Outcome :=
  if s.rxCount < s.cfg.rxBufSize then finish none (storePayloadByte b s)
  else .fault (.rxBufOutOfRange s.rxCount)

/-- State `ExpectCrcHigh` (R128). -/
def inExpectCrcHigh (b : Byte) (s : State) : State := { s with rxCrcHi := b, rxState := .expectCrcLow }

/-- The end of a frame, before it is judged: the receive timer cancelled and the parser at a frame boundary (R129). -/
def endFrame (t : Nat) (s : State) : State := { muxCancel .rx t s with rxState := .expectPreamble }

/-- State `ExpectCrcLow` (R129). -/
def inExpectCrcLow (b : Byte) (t : Nat) (s : State) : Outcome :=
  if receivedCrc s.rxCrcHi b = s.rxCrc then dispatch t (endFrame t s)
  else finish none (sendNack codeBadCrc s.rxSeq (endFrame t s))

/-- One received byte, by the parser's state (R120). -/
def parseByte (b : Byte) (t : Nat) (s : State) : Outcome :=
  match s.rxState with
  | .expectPreamble => finish none (inExpectPreamble b t s)
  | .notPreamble => finish none (inNotPreamble b t s)
  | .expectHeaderHigh => finish none (inExpectHeaderHigh b s)
  | .expectHeaderLow => finish none (inExpectHeaderLow b s)
  | .receivingData => inReceivingData b s
  | .expectCrcHigh => finish none (inExpectCrcHigh b s)
  | .expectCrcLow => inExpectCrcLow b t s

/-- `receive_byte(b, t)` (R120). -/
def execReceiveByte (b : Byte) (t : Nat) (s : State) : Outcome := whenIdle s (parseByte b t s)

/-- PREAMBLE: the byte 0x5A on the wire. Outside a frame it starts one (R121, R122, R124); inside a frame it has no
special meaning and is consumed by the state that expects the field (R94). -/
def execPreamble (t : Nat) (s : State) : Outcome :=
  whenIdle s
    (match s.rxState with
     | .expectPreamble => finish none (acceptPreamble t s)
     | .notPreamble => finish none (preambleAfterGarbage t s)
     | .expectHeaderHigh | .expectHeaderLow | .receivingData | .expectCrcHigh | .expectCrcLow =>
       parseByte preambleByte t s)

/-- `rx_timeout_handler()` (R131). -/
def rxTimeoutHandler (s : State) : State :=
  { sendNack codeRxTimeout s.rxSeq s with rxState := .expectPreamble }

end Sys2Proof.Machine
end

