-- ==== Sys2Proof/Machine/Tick.lean ====
section
/-! DEFINITION. The tick stimulus (spec/42_timer_mux.md R154 to R156). -/

namespace Sys2Proof.Machine

/-- Step 2 of a tick: every timer that fires is disabled before a handler runs (R155). -/
def disarmFired (s : State) : State :=
  { s with tmrRx := { s.tmrRx with en := s.tmrRx.en && !s.tmrRx.fires },
           tmrAck := { s.tmrAck with en := s.tmrAck.en && !s.tmrAck.fires } }

/-- The handlers of the timers that fired, the receive timer's first (R156). -/
def runHandlers (fireRx fireAck : Bool) (t : Nat) (s : State) : State :=
  let s := if fireRx then rxTimeoutHandler s else s
  if fireAck then ackTimeoutTrigger t s else s

/-- The three steps of a tick after its checks (R154, R155, R156). -/
def runTick (t : Nat) (s : State) : State :=
  let s := accrue t s
  reschedule t (runHandlers s.tmrRx.fires s.tmrAck.fires t (disarmFired s))

/-- `tick(t)` (R154). -/
def execTick (t : Nat) (s : State) : Outcome := whenIdle s (finish none (runTick t s))

end Sys2Proof.Machine
end

