-- ==== Sys2Proof/Machine/Dispatch.lean ====
section
/-! DEFINITION. One arm per instruction: which meaning it has. -/

namespace Sys2Proof.Machine

def exec (i : Instr) (s : State) : Host.Outcome State Fault Refusal :=
  match i with
  -- the command codes (R99)
  | .receiveByte b t => Sys2Proof.Machine.execReceiveByte b t s
  | .tick t => Sys2Proof.Machine.execTick t s
  | .transmit requiresAck payload t => Sys2Proof.Machine.execTransmit requiresAck payload t s
  | .replyAck payload => Sys2Proof.Machine.execReplyAck payload s
  | .cbReturn => Sys2Proof.Machine.execCbReturn s
  | .init config => Sys2Proof.Machine.execInit config s
  | .reserved110 => Sys2Proof.Machine.execReserved110 s
  | .reserved111 => Sys2Proof.Machine.execReserved111 s
  -- the rows decoded on the wire (R104)
  | .preamble t => Sys2Proof.Machine.execPreamble t s
  | .hdrUnsync seq len => Sys2Proof.Machine.execHdrUnsync seq len s
  | .hdrSync seq len => Sys2Proof.Machine.execHdrSync seq len s
  | .hdrAck seq len t => Sys2Proof.Machine.execHdrAck seq len t s
  | .hdrNack seq len t => Sys2Proof.Machine.execHdrNack seq len t s
  | .nackNotPreamble t => Sys2Proof.Machine.execNackNotPreamble t s
  | .nackBadCrc t => Sys2Proof.Machine.execNackBadCrc t s
  | .nackRxTimeout t => Sys2Proof.Machine.execNackRxTimeout t s
  | .nackNotReady t => Sys2Proof.Machine.execNackNotReady t s
  | .nackOther code t => Sys2Proof.Machine.execNackOther code t s

end Sys2Proof.Machine
end

