-- ==== Sys2Proof/Machine/Fetch.lean ====
section
/-! DEFINITION. Where the next stimulus comes from, and how a word of the opcode table is put there. The engine fetches no
instructions (spec/20_memory.md R77): the host delivers stimuli one at a time (spec/60_exceptions.md R226, R232), and
`State.pending` holds those still to come (assumption 9). -/

namespace Sys2Proof.Machine

/-- The next stimulus, decoded, and the state with it delivered. -/
def fetch (s : State) : Option (Instr × State) :=
  match s.pending with
  | [] => none
  | c :: rest => some (decodeStimulus c, { s with pending := rest })

/-- Puts a stimulus in front of those the host has still to deliver. -/
def deliverNext (c : Stimulus) (s : State) : State := { s with pending := c :: s.pending }

/-- A received byte as a stimulus at time 0. -/
def byteStimulus (b : Byte) : Stimulus := stimulusOf (.receiveByte b 0)

/-- Enables or disables the receive timer as the parser's position asks (R48), with `PRIM` to match (R54). -/
def placeRxTimer (en : Bool) (s : State) : State :=
  let s := { s with tmrRx := { s.tmrRx with en := en, rem := s.cfg.rxTimeout } }
  { s with prim := deadlinePrim s.tmrRx.last (soonest s) }

/-- The parser outside a frame: where the preamble row is decoded (R104). -/
def placeBoundary (s : State) : State :=
  if s.rxState.midFrame then placeRxTimer false { s with rxState := .expectPreamble } else s

/-- Writes bytes at the addresses from `a` on, the last one first. -/
def writeFrom (fill : Fill) : List Byte → Nat → Memory → Memory
  | [], _, m => m
  | b :: bs, a, m => Memory.write fill (writeFrom fill bs (a + 1) m) a b

/-- The parser about to receive the last byte of a valid frame with that header byte, length bytes and payload, and that
byte as the next stimulus: the next step dispatches the frame. -/
def placeFrame (header : Byte) (lenBytes payload : List Byte) (s : State) : State :=
  let crc := crcOver s.crcUpdate crcInit (header :: (lenBytes ++ payload))
  let s := latchHeader (headerKind header) (headerSeq header) (headerLen header) s
  let s := placeRxTimer true
    { s with rxState := .expectCrcLow, rxLen := payload.length, rxCount := payload.length,
             rxBuf := writeFrom s.rxBufFill payload 0 s.rxBuf, rxCrc := crc, rxCrcHi := crc.extractLsb' 8 8 }
  deliverNext (byteStimulus (crc.extractLsb' 0 8)) s

/-- A frame with that header, and with a LenByte and payload bytes of zeros where its length-class has any (R84). -/
def placeHeader (kind : Kind) (seq : Seq) (lc : LenClass) (s : State) : State :=
  if lc = 0 then placeFrame (headerByte kind seq lc) [] [] s
  else placeFrame (headerByte kind seq lc) [0] (List.replicate (assembleLength lc 0) 0) s

/-- A one-byte NACK with that code, for the sequence in `RX_SEQ` (R89). -/
def placeNack (code : Byte) (s : State) : State :=
  placeFrame (headerByte .nack s.rxSeq 1) [0] [code] s

/-- Puts an instruction where the very next step runs it: a stimulus in front of the queue; a row decoded on the wire as
the received byte that completes it. -/
def placeInstr (i : Instr) (s : State) : State :=
  match i with
  | .receiveByte _ _ | .tick _ | .transmit _ _ _ | .replyAck _ | .cbReturn | .init _
  | .reserved110 | .reserved111 => deliverNext (stimulusOf i) s
  | .preamble _ => deliverNext (byteStimulus preambleByte) (placeBoundary s)
  | .hdrUnsync seq len => placeHeader .unsync seq len s
  | .hdrSync seq len => placeHeader .sync seq len s
  | .hdrAck seq len _ => placeHeader .ack seq len s
  | .hdrNack seq len _ => placeHeader .nack seq len s
  | .nackNotPreamble _ => placeNack codeNotPreamble s
  | .nackBadCrc _ => placeNack codeBadCrc s
  | .nackRxTimeout _ => placeNack codeRxTimeout s
  | .nackNotReady _ => placeNack codeNotReady s
  | .nackOther code _ => placeNack code s

/-- Puts a bare word of the table there; a word that is no instruction's changes nothing. -/
def placeWord (nbits w : Nat) (s : State) : State :=
  match decodeTableWord nbits w with
  | some i => placeInstr i s
  | none => s

/-- One step: the next stimulus runs to completion (R9, R72); with none to deliver, the engine holds its state (R240). -/
def stepOnce (s : State) : Outcome :=
  match fetch s with
  | some (i, s') => exec i s'
  | none => .next s

end Sys2Proof.Machine
end

