-- ==== Sys2Proof/Machine/Step.lean ====
section
/-! DEFINITION. The step of the engine: one stimulus (spec/00_scope.md R9). -/

namespace Sys2Proof.Machine

/-- One step (R9, R240). -/
def step : State → Host.Outcome State Fault Refusal := stepOnce

/-- `s` with the instruction of a bare word of the opcode table placed where the next step runs it. -/
def State.withFetchWord (s : State) (nbits w : Nat) : State := placeWord nbits w s

end Sys2Proof.Machine
end

