-- ==== Sys2Proof/Safety.lean ====
section
/-! DEFINITION. The terms the statements use: when a stimulus is accepted (spec/60_exceptions.md R223, R224), the
invariants of the engine (spec/10_state.md R41 to R54), what a family of instructions leaves alone, and runs of several
instructions. -/

namespace Sys2Proof.Machine

/-! ### When a stimulus is accepted -/

/-- No refusal applies: no fault is recorded and init has happened (R224). -/
abbrev Accepting (s : State) : Prop := s.fault = none ∧ s.inited = true

/-- `receive_byte`, `tick` and `transmit` are legal (R223). -/
abbrev Ready (s : State) : Prop := Accepting s ∧ s.ctx = .idle

/-- A callback window is open: `reply_ack` has its effect and `cb_return` is legal (R223). -/
abbrev InWindow (s : State) : Prop := Accepting s ∧ s.ctx = .inRxCallback

/-- The instruction is one of the two reserved command codes (R100). -/
def isReserved : Instr → Bool
  | .reserved110 | .reserved111 => true
  | _ => false

/-- The instruction hands the parser a received byte (R120, and the row of the byte 0x5A). -/
def takesByte : Instr → Bool
  | .receiveByte _ _ | .preamble _ => true
  | _ => false

/-- The instruction is init, whatever its configuration. -/
def isInit : Instr → Bool
  | .init _ => true
  | _ => false

/-! ### Invariants -/

/-- The length of the frame is known: the parser is in its payload or its trailer. -/
def RxState.inPayload : RxState → Bool
  | .receivingData | .expectCrcHigh | .expectCrcLow => true
  | _ => false

/-- The parser is in the trailer of a frame. -/
def RxState.inTrailer : RxState → Bool
  | .expectCrcHigh | .expectCrcLow => true
  | _ => false

/-- The payload bytes of the frame in progress that the buffer holds so far (R127). -/
def storedBytes (s : State) : List Byte := (List.range s.rxCount).map (bufByte s)

/-- The receive side: the buffer is large enough, in canonical form and written below 768 only, lengths are in 0..768, and
a length byte is awaited only where the header announced one (R37, R38, R61, R126, R127). -/
abbrev ParserInv (s : State) : Prop :=
  maxPayload ≤ s.cfg.rxBufSize ∧ Memory.wf s.rxBufFill s.rxBuf = true ∧ (∀ c ∈ s.rxBuf, c.1 < maxPayload) ∧
  s.rxLen ≤ maxPayload ∧ s.rxCount ≤ maxPayload ∧
  (s.rxState = .expectHeaderLow ∨ s.rxState = .receivingData → s.rxLc ≠ 0) ∧
  (s.rxState = .receivingData → s.rxCount < s.rxLen) ∧
  (s.rxState.inTrailer = true → s.rxCount = s.rxLen ∧ (s.rxLc = 0 → s.rxLen = 0))

/-- The running CRC covers the frame so far and nothing else: the header, the length byte and the payload bytes that the
buffer holds (R86, R112). So every payload byte that the dispatch of a matching frame reads has been received. -/
abbrev CrcInv (s : State) : Prop :=
  (s.rxState = .expectHeaderHigh → s.rxCrc = crcInit) ∧
  (s.rxState = .expectHeaderLow →
    s.rxCrc = crcOver s.crcUpdate crcInit [headerByte s.rxKind s.rxSeq s.rxLc]) ∧
  (s.rxState.inPayload = true → s.rxLc = (lengthFields s.rxLen).1 ∧
    s.rxCrc = crcOver s.crcUpdate crcInit
      (headerByte s.rxKind s.rxSeq s.rxLc :: ((lengthFields s.rxLen).2 ++ storedBytes s)))

/-- The send side: `TX_SEQUENCE` in 1..15, an outstanding packet is in the TX store under the current sequence number,
the stored frame is the packet's encoding, and the retry count is within its bound (R41 to R45, R64). -/
abbrev TxInv (s : State) : Prop :=
  s.txSequence ≠ 0 ∧
  (s.awaitingAck = true → s.txValid = true ∧ s.txSeq = s.txSequence ∧ s.retryCount ≤ s.cfg.maxRetries) ∧
  (s.txValid = true →
    s.txFrame = encodeFrame s.crcUpdate .sync s.txSeq s.txPayload ∧ s.txPayload.length ≤ maxPayload ∧ s.txSeq ≠ 0) ∧
  s.retryCount ≤ s.cfg.maxRetries + 1

/-- The timers: the receive timer runs exactly inside a frame (R48), the ack timer exactly while a packet is outstanding
(R49 and its converse), and both records were last updated together once one of them runs (R46). -/
abbrev TimerInv (s : State) : Prop :=
  s.tmrRx.en = s.rxState.midFrame ∧ s.tmrAck.en = s.awaitingAck ∧
  (s.tmrRx.en = true ∨ s.tmrAck.en = true → s.tmrRx.last = s.tmrAck.last)

/-- A window is open only between frames, and for a frame that has a callback (R50, R132, R201). -/
abbrev WindowInv (s : State) : Prop :=
  s.ctx = .inRxCallback → s.rxState = .expectPreamble ∧ (s.rxKind = .unsync ∨ s.rxKind = .sync)

/-- The invariant that every step keeps. -/
abbrev EngineInv (s : State) : Prop := ParserInv s ∧ CrcInv s ∧ TxInv s ∧ TimerInv s ∧ WindowInv s

/-- R54: `PRIM` is armed for the sooner of the enabled deadlines, counted from the last multiplexer update, and idle if
neither timer is enabled. -/
abbrev PrimMirrors (s : State) : Prop :=
  (s.tmrRx.en = false → s.tmrAck.en = false → s.prim = .idle) ∧
  (s.tmrRx.en = true → s.tmrAck.en = false → s.prim = .armed (s.tmrRx.last + s.tmrRx.rem)) ∧
  (s.tmrRx.en = false → s.tmrAck.en = true → s.prim = .armed (s.tmrAck.last + s.tmrAck.rem)) ∧
  (s.tmrRx.en = true → s.tmrAck.en = true →
    s.tmrRx.last = s.tmrAck.last ∧ s.prim = .armed (s.tmrRx.last + min s.tmrRx.rem s.tmrAck.rem))

/-! ### What an instruction leaves alone -/

/-- The TX store (R42), with its valid bit (R41). -/
abbrev SameTxStore (s t : State) : Prop :=
  t.txValid = s.txValid ∧ t.txSeq = s.txSeq ∧ t.txPayload = s.txPayload ∧ t.txFrame = s.txFrame

/-! ### Runs of several instructions -/

/-- The instructions in order, stopping at the first fault or refusal. -/
def execAll : List Instr → State → Outcome
  | [], s => .next s
  | i :: is, s =>
    match exec i s with
    | .next t => execAll is t
    | .fault f => .fault f
    | .refused r => .refused r

/-- The bytes of a run received in order (R73), each at its own sample. -/
def receiveAt (bytes : List Byte) (times : List Nat) : List Instr := List.zipWith .receiveByte bytes times

/-- The event is a callback of the application: neither a byte on the wire nor a timer command (R24). -/
def isCallback : Event → Bool
  | .wire _ | .arm _ | .cancel => false
  | .pktRx _ _ _ | .ackRx _ _ | .timeout _ _ | .nonProto _ => true

/-- The `WIRE` events of a frame (R24). -/
def wires (bytes : List Byte) : List Event := bytes.map Event.wire

/-- The tick samples of a run, each at least `d` after the one before it, the first at least `d` after `t0`. -/
def spacedBy (d t0 : Nat) : List Nat → Prop
  | [] => True
  | t :: ts => t0 + d ≤ t ∧ spacedBy d t ts

/-- Samples that never decrease, from `t0` on (R21, R235), ending at `t1`. -/
def risesTo (t0 t1 : Nat) : List Nat → Prop
  | [] => t1 = t0
  | t :: ts => t0 ≤ t ∧ risesTo t t1 ts

/-! ### The timer command that R151 asks for -/

/-- The command of a reschedule at time `t` with these two records, and what it leaves in `PRIM`, by the four cases of the
enables (R53, R151). -/
def commanded (t : Nat) (rx ack : Timer) : Event × Prim :=
  match rx.en, ack.en with
  | true, true => (.arm (min rx.rem ack.rem), .armed (t + min rx.rem ack.rem))
  | true, false => (.arm rx.rem, .armed (t + rx.rem))
  | false, true => (.arm ack.rem, .armed (t + ack.rem))
  | false, false => (.cancel, .idle)

/-! ### The header row of a frame -/

/-- The header row of the table for a kind (R97), as the instruction a valid frame with these fields runs at time `t`. -/
def frameRow (kind : Kind) (seq : Seq) (lc : LenClass) (t : Nat) : Instr :=
  match kind with
  | .unsync => .hdrUnsync seq lc
  | .sync => .hdrSync seq lc
  | .ack => .hdrAck seq lc t
  | .nack => .hdrNack seq lc t

end Sys2Proof.Machine
end

