-- ==== Sys2Proof/Certificates/Slice0/Obligations.lean ====
section
/-! DEFINITION. The statements for the provers, from the spec's numbered rules. Each docstring names its rule. -/

open Sys2Proof Sys2Proof.Machine

/-! ## Encoding -/

/-- R81, R82: the header byte is `Ty` in bits 7:6, `Seq` in bits 5:2 and `Len` in bits 1:0, decoded and packed so, with
the four codes of `Ty`. -/
def Obligations.HeaderByteLayout : Prop :=
  (∀ b : Byte, (headerKind b).code.toNat = b.toNat / 64 ∧ (headerSeq b).toNat = b.toNat / 4 % 16 ∧
    (headerLen b).toNat = b.toNat % 4) ∧
  (∀ (kind : Kind) (seq : Seq) (lc : LenClass),
    (headerByte kind seq lc).toNat = kind.code.toNat * 64 + seq.toNat * 4 + lc.toNat) ∧
  Kind.unsync.code = 0 ∧ Kind.sync.code = 1 ∧ Kind.ack.code = 2 ∧ Kind.nack.code = 3

/-- R92: every header byte decodes to a triple, and header bytes and triples correspond one to one. -/
def Obligations.HeaderBytesAndTriplesCorrespond : Prop :=
  (∀ b : Byte, headerByte (headerKind b) (headerSeq b) (headerLen b) = b) ∧
  (∀ (kind : Kind) (seq : Seq) (lc : LenClass),
    headerKind (headerByte kind seq lc) = kind ∧ headerSeq (headerByte kind seq lc) = seq ∧
    headerLen (headerByte kind seq lc) = lc)

/-- R85: the length fields of every payload length 0..768, and that length fields and lengths correspond one to one
under the assembly of R84. -/
def Obligations.LengthFieldsInvertAssembly : Prop :=
  lengthFields 0 = (0, []) ∧
  (∀ n, 1 ≤ n → n ≤ 768 → ∃ lc lb, lengthFields n = (lc, [lb]) ∧ lc ≠ 0 ∧
    lc.toNat = (n - 1) / 256 + 1 ∧ lb.toNat = (n - 1) % 256 ∧ assembleLength lc lb = n) ∧
  (∀ (lc : LenClass) (lb : Byte), lc ≠ 0 →
    assembleLength lc lb = (lc.toNat - 1) * 256 + lb.toNat + 1 ∧
    1 ≤ assembleLength lc lb ∧ assembleLength lc lb ≤ 768 ∧
    lengthFields (assembleLength lc lb) = (lc, [lb]))

/-- R171, R88: an encoded frame is the preamble, the header, the LenByte if any, the payload and the CRC with its high
byte first; it has 4 bytes without a payload and 5 + n with one, so at most 773. -/
def Obligations.EncodedFrameLayout : Prop :=
  ∀ (update : CrcUpdate) (kind : Kind) (seq : Seq) (payload : List Byte), payload.length ≤ 768 →
    ∃ (lb : List Byte) (hi lo : Byte),
      let hdr := headerByte kind seq (lengthFields payload.length).1
      lb = (lengthFields payload.length).2 ∧
      encodeFrame update kind seq payload = [0x5A, hdr] ++ lb ++ payload ++ [hi, lo] ∧
      hi ++ lo = crcOver update 0xFFFF ([hdr] ++ lb ++ payload) ∧
      (encodeFrame update kind seq payload).length = (if payload = [] then 4 else 5 + payload.length) ∧
      4 ≤ (encodeFrame update kind seq payload).length ∧ (encodeFrame update kind seq payload).length ≤ 773

/-- Decoding the encoding of any well-formed instruction gives it back, with every operand; for a stimulus also through
the command interface. -/
def Obligations.DecodeOfEncodeIsIdentity : Prop :=
  ∀ i : Instr, WellFormed i = true →
    decode (encode i) = .ok i ∧ (formatOf i = .stimulus → decodeStimulus (stimulusOf i) = i)

/-- What decodes is well-formed and is encoded in that format by that very word. A command word decodes exactly if it is
below 8, a byte outside a frame exactly if it is the preamble, and each is rejected by its own name otherwise; headers and
NACK codes decode always (R92, R93, R95, R99). -/
def Obligations.DecodedWordIsTheInstructionsOwn : Prop :=
  (∀ (c : Coded) (i : Instr), decode c = .ok i →
    WellFormed i = true ∧ formatOf i = c.format ∧ wordOf i = c.word) ∧
  (∀ c : Coded, c.format = .stimulus →
    (c.word.toNat < 8 → ∃ i, decode c = .ok i) ∧ (8 ≤ c.word.toNat → decode c = .error .notACommandCode)) ∧
  (∀ c : Coded, c.format = .wireByte →
    (c.word = 0x5A → ∃ i, decode c = .ok i) ∧ (c.word ≠ 0x5A → decode c = .error .garbageByte)) ∧
  (∀ c : Coded, c.format = .header ∨ c.format = .nackCode → ∃ i, decode c = .ok i)

/-- Some words of the table, written out from their encodings (R89, R97, R99), decode to their instructions. That a bare
word below 8 is a command code, 0x5A the preamble and any other a header, with operands of zero, is the model's choice
(assumption 5): the table's formats share these numbers. -/
def Obligations.TableWordsDecode : Prop :=
  decodeTableWord 8 0x00 = some (.receiveByte 0 0) ∧ decodeTableWord 8 0x04 = some .cbReturn ∧
  decodeTableWord 8 0x06 = some .reserved110 ∧ decodeTableWord 8 0x5A = some (.preamble 0) ∧
  decodeTableWord 8 0x45 = some (.hdrSync 1 1) ∧ decodeTableWord 8 0x84 = some (.hdrAck 1 0 0) ∧
  decodeTableWord 8 0xC1 = some (.hdrNack 0 1 0) ∧
  decode { format := .header, word := 0x00, ops := blankOperands } = .ok (.hdrUnsync 0 0) ∧
  decode { format := .nackCode, word := 0x02, ops := blankOperands } = .ok (.nackBadCrc 0) ∧
  decode { format := .nackCode, word := 0x05, ops := blankOperands } = .ok (.nackOther 5 0)

/-! ## CRC engine -/

/-- R113: `crc16_update` is the bit-serial, MSB-first update with polynomial 0x1021 on all inputs, and with it
the CRC of "123456789" from 0xFFFF is 0x29B1. -/
def Obligations.CrcUpdateIsBitSerialUpdate : Prop :=
  (∀ (crc : Crc) (byte : Byte), crc16Update crc byte = crcBitSerial crc byte) ∧
  crcOver .reconstructed 0xFFFF [0x31, 0x32, 0x33, 0x34, 0x35, 0x36, 0x37, 0x38, 0x39] = 0x29B1

/-- R111: `crc_over` folds the update over the bytes in order, gives the initial value for no bytes, and is associative
over concatenation, whatever the parameter `CRC_UPDATE` is; its default is `crc16_update`, with the rule's example. -/
def Obligations.CrcOverFoldsTheUpdate : Prop :=
  (∀ (u : CrcUpdate) (v : Crc), crcOver u v [] = v) ∧
  (∀ (u : CrcUpdate) (v : Crc) (b : Byte) (bs : List Byte), crcOver u v (b :: bs) = crcOver u (crcUpdate u v b) bs) ∧
  (∀ (u : CrcUpdate) (v : Crc) (a b : List Byte), crcOver u v (a ++ b) = crcOver u (crcOver u v a) b) ∧
  crcUpdate .reconstructed = crc16Update ∧
  crcOver .reconstructed 0xFFFF [0x45, 0x01, 0x01, 0x02] = 0x725A

/-- R114: folding an encoded frame without its preamble leaves zero, with the default of `CRC_UPDATE`. -/
def Obligations.FrameResidueIsZero : Prop :=
  ∀ (kind : Kind) (seq : Seq) (payload : List Byte),
    crcOver .reconstructed 0xFFFF (encodeFrame .reconstructed kind seq payload).tail = 0

/-- R115, and more than a single bit: changing one byte that the CRC covers changes the CRC, and changing either trailer
byte changes the received value, so the comparison of R129 becomes a mismatch. The first holds of the
default of `CRC_UPDATE`. -/
def Obligations.CrcDetectsAChangedByte : Prop :=
  (∀ (v : Crc) (pre post : List Byte) (b b' : Byte), b ≠ b' →
    crcOver .reconstructed v (pre ++ b :: post) ≠ crcOver .reconstructed v (pre ++ b' :: post)) ∧
  (∀ hi lo hi' lo' : Byte, (hi, lo) ≠ (hi', lo') → receivedCrc hi lo ≠ receivedCrc hi' lo') ∧
  (∀ c : Crc, receivedCrc (c.extractLsb' 8 8) (c.extractLsb' 0 8) = c)

/-! ## The machine as a whole -/

/-- A step runs one stimulus to completion, decoded (R9, R72), and between stimuli the state is held (R240). That the
stimuli still to come stand in `State.pending`, that a step takes the first, and that with none it answers the state itself,
is the model's choice (assumption 9): the spec keeps them in the host (R226). -/
def Obligations.StepRunsTheDeliveredStimulus : Prop :=
  (∀ (s : State) (c : Stimulus) (rest : List Stimulus), s.pending = c :: rest →
    step s = exec (decodeStimulus c) { s with pending := rest }) ∧
  (∀ s : State, s.pending = [] → step s = .next s)

/-- R224: after a fault every instruction is refused; so is everything but init before the first init, and so are the
reserved codes always. A refusal has no next state. -/
def Obligations.RefusalRules : Prop :=
  (∀ (i : Instr) (s : State) (f : EngineFault), s.fault = some f → isReserved i = false →
    exec i s = .refused (.engineFaulted f)) ∧
  (∀ (i : Instr) (s : State), s.fault = none → s.inited = false → isReserved i = false → isInit i = false →
    exec i s = .refused .beforeInit) ∧
  (∀ (i : Instr) (s : State), isReserved i = true → ∃ c, exec i s = .refused (.reservedCode c)) ∧
  (∀ (i : Instr) (s t : State), exec i s = .next t →
    s.fault = none ∧ (s.inited = true ∨ isInit i = true) ∧ isReserved i = false)

/-- R100: the command codes 0b110 and 0b111 are refused in every state. -/
def Obligations.ReservedCodesAreRefused : Prop :=
  ∀ s : State, exec .reserved110 s = .refused (.reservedCode 6) ∧
    exec .reserved111 s = .refused (.reservedCode 7)

/-- R222: the four model faults, each raised by the cause the table gives, and recorded in FAULT with every other piece of
state as it was (R25), for good: there is no next state from there. -/
def Obligations.FaultsAreRecordedAndChangeNothingElse : Prop :=
  (∀ (s : State) (b : Byte) (t : Nat) (ra : Bool) (p : List Byte), InWindow s →
    exec (.receiveByte b t) s = .next { s with fault := some .reentrant } ∧
    exec (.tick t) s = .next { s with fault := some .reentrant } ∧
    exec (.transmit ra p t) s = .next { s with fault := some .reentrant }) ∧
  (∀ (s : State) (ra : Bool) (p : List Byte) (t : Nat), Ready s → 768 < p.length →
    exec (.transmit ra p t) s = .next { s with fault := some .payloadTooLong }) ∧
  (∀ (s : State) (p : List Byte), InWindow s → 768 < p.length →
    exec (.replyAck p) s = .next { s with fault := some .payloadTooLong }) ∧
  (∀ s : State, Ready s → exec .cbReturn s = .next { s with fault := some .noWindow }) ∧
  (∀ (s : State) (c : Cfg), s.fault = none → c.rxBufSize < 768 →
    exec (.init c) s = .next { s with fault := some .badConfig }) ∧
  (∀ (i : Instr) (s t : State) (f : EngineFault), s.fault = some f → exec i s ≠ .next t)

/-- R225: the order of the checks: refusal in every mode and with any payload, then the mode with any payload, then the
payload length, then Busy; the first that applies decides. -/
def Obligations.ChecksRunInTheirOrder : Prop :=
  (∀ (i : Instr) (s : State) (f : EngineFault), s.fault = some f → isReserved i = false →
    exec i s = .refused (.engineFaulted f)) ∧
  (∀ (i : Instr) (s : State), s.fault = none → s.inited = false → isReserved i = false → isInit i = false →
    exec i s = .refused .beforeInit) ∧
  (∀ (s : State) (b : Byte) (ra : Bool) (p : List Byte) (t : Nat), InWindow s →
    exec (.receiveByte b t) s = .next { s with fault := some .reentrant } ∧
    exec (.tick t) s = .next { s with fault := some .reentrant } ∧
    exec (.transmit ra p t) s = .next { s with fault := some .reentrant }) ∧
  (∀ (s : State) (p : List Byte), Ready s →
    exec .cbReturn s = .next { s with fault := some .noWindow } ∧
    exec (.replyAck p) s = .next { s with result := some .invalidState }) ∧
  (∀ (s : State) (p : List Byte), InWindow s → 768 < p.length →
    exec (.replyAck p) s = .next { s with fault := some .payloadTooLong }) ∧
  (∀ (s : State) (p : List Byte) (t : Nat), Ready s → s.awaitingAck = true →
    exec (.transmit true p t) s =
      if 768 < p.length then .next { s with fault := some .payloadTooLong }
      else .next { s with result := some .busy })

/-! ## init and reset -/

/-- R250, R251: init with a buffer of at least 768 bytes writes the configuration and the registers the rule lists, and
emits nothing; with a smaller buffer it raises BadConfig; after a fault it is refused. -/
def Obligations.InitWritesItsRegisters : Prop :=
  (∀ (s : State) (c : Cfg), s.fault = none → 768 ≤ c.rxBufSize →
    ∃ t, exec (.init c) s = .next t ∧ t.cfg = c ∧ t.inited = true ∧
      t.rxState = .expectPreamble ∧ t.rxSeq = 0 ∧ t.txValid = false ∧ t.txSequence = 1 ∧
      t.awaitingAck = false ∧ t.retryCount = 0 ∧ t.tmrRx.en = false ∧ t.tmrAck.en = false ∧
      t.rxUserAcked = false ∧ t.ctx = .idle ∧ t.fault = none ∧ t.trace = s.trace ∧ t.result = none) ∧
  (∀ (s : State) (c : Cfg), s.fault = none → c.rxBufSize < 768 →
    exec (.init c) s = .next { s with fault := some .badConfig }) ∧
  (∀ (s : State) (c : Cfg) (f : EngineFault), s.fault = some f →
    exec (.init c) s = .refused (.engineFaulted f))

/-- What init leaves alone, and the limits that its unspecified registers keep. That `PRIM` stays is the model's reading
(assumption 8); that every byte of the buffer is a free value, drawn at this init, is assumptions 3 and 4, and the draw
counter is the model's own (assumption 3). -/
def Obligations.InitLeavesHostSideAlone : Prop :=
  ∀ (s : State) (c : Cfg), s.fault = none → 768 ≤ c.rxBufSize →
    ∃ t, exec (.init c) s = .next t ∧ t.prim = s.prim ∧ t.pending = s.pending ∧ t.crcUpdate = s.crcUpdate ∧
      t.draws = s.draws + 1 ∧ t.rxLen ≤ 768 ∧ t.rxCount ≤ 768 ∧ t.txPayload.length ≤ 768 ∧
      4 ≤ t.txFrame.length ∧ t.txFrame.length ≤ 773 ∧ ∀ a, bufByte t a = Config.freeRxByte s.draws a

/-- R55, R252: the values the spec gives for the state after init. -/
def Obligations.ResetHoldsTheSpecsValues : Prop :=
  State.reset.rxState = .expectPreamble ∧ State.reset.rxSeq = 0 ∧ State.reset.txValid = false ∧
  State.reset.txSequence = 1 ∧ State.reset.awaitingAck = false ∧ State.reset.retryCount = 0 ∧
  State.reset.tmrRx.en = false ∧ State.reset.tmrAck.en = false ∧ State.reset.ctx = .idle ∧
  State.reset.rxUserAcked = false ∧ State.reset.fault = none ∧ State.reset.prim = .idle ∧
  State.reset.cfg.maxRetries = 10 ∧ State.reset.cfg.retryDelay = 40 ∧
  State.reset.cfg.rxTimeout = 2 * 40 * 10 ∧ State.reset.cfg.nackGarbage = false

/-- The invariant holds at reset and before the first init, and so does R54. What the two states hold beyond R55 is the
model's choice: the unspecified registers and the buffer's bytes (assumptions 1 and 4), a buffer of 768 bytes, and all of the
state before the first init, of which the spec says nothing (assumption 2). -/
def Obligations.ResetMeetsTheInvariants : Prop :=
  EngineInv State.reset ∧ PrimMirrors State.reset ∧ EngineInv State.powerOn ∧ PrimMirrors State.powerOn

/-! ## Frame parser -/

/-- R121, R122, R123, R124: outside a frame, a byte other than 0x5A is forwarded if the callback is configured and leaves
the parser in NotPreamble; 0x5A arms the receive timer, resets the sequence and the CRC and goes on to the header, after
the garbage NACK where that is configured and garbage came before. -/
def Obligations.ParserOutsideAFrame : Prop :=
  ∀ (s : State) (t : Nat), Ready s → s.rxState = .expectPreamble ∨ s.rxState = .notPreamble →
    (∀ b : Byte, b ≠ 0x5A →
      exec (.receiveByte b t) s = .next { s with
        rxState := .notPreamble
        trace := s.trace ++ (if s.cfg.hasNonprotocolCb then [.nonProto b] else [])
        result := none }) ∧
    (let rx : Timer := { en := true, rem := s.cfg.rxTimeout, last := t }
     let ack : Timer := { en := s.tmrAck.en, rem := s.tmrAck.rem - (t - s.tmrAck.last), last := t }
     exec (.receiveByte 0x5A t) s = .next { s with
       tmrRx := rx, tmrAck := ack, rxSeq := 0, rxCrc := 0xFFFF, rxState := .expectHeaderHigh
       trace := s.trace ++
         (if s.rxState = .notPreamble ∧ s.cfg.nackGarbage = true then wires (encodeFrame s.crcUpdate .nack 0 [1]) else []) ++
         [(commanded t rx ack).1]
       prim := (commanded t rx ack).2
       result := none })

/-- The PREAMBLE row is the received byte 0x5A. Where a frame may start (R104) it is accepted (R122). That the row stands for
the byte in every other state of the parser too, where the byte is data (R94), is the model's choice (assumption 7). -/
def Obligations.PreambleRowIsTheByteReceived : Prop :=
  (∀ (s : State) (t : Nat), exec (.preamble t) s = exec (.receiveByte 0x5A t) s) ∧
  (∀ (s : State) (t : Nat), Ready s → s.rxState = .expectPreamble ∨ s.rxState = .notPreamble →
    ∃ u, exec (.preamble t) s = .next u ∧ u.rxState = .expectHeaderHigh ∧ u.rxSeq = 0 ∧ u.rxCrc = 0xFFFF ∧
      u.tmrRx = { en := true, rem := s.cfg.rxTimeout, last := t })

/-- R125: the header byte. -/
def Obligations.HeaderByteIsParsed : Prop :=
  ∀ (s : State) (b : Byte) (t : Nat), Ready s → s.rxState = .expectHeaderHigh →
    exec (.receiveByte b t) s = .next { s with
      rxKind := headerKind b, rxSeq := headerSeq b, rxLc := headerLen b
      rxCrc := crcUpdate s.crcUpdate s.rxCrc b
      rxLen := if headerLen b = 0 then 0 else s.rxLen
      rxCount := if headerLen b = 0 then 0 else s.rxCount
      rxState := if headerLen b = 0 then .expectCrcHigh else .expectHeaderLow
      result := none }

/-- R126: the length byte, after a header that announced one; the length is in 1..768. -/
def Obligations.LengthByteIsParsed : Prop :=
  ∀ (s : State) (b : Byte) (t : Nat), Ready s → s.rxState = .expectHeaderLow → s.rxLc ≠ 0 →
    exec (.receiveByte b t) s = .next { s with
      rxLen := (s.rxLc.toNat - 1) * 256 + b.toNat + 1
      rxCrc := crcUpdate s.crcUpdate s.rxCrc b
      rxCount := 0
      rxState := .receivingData
      result := none } ∧
    1 ≤ (s.rxLc.toNat - 1) * 256 + b.toNat + 1 ∧ (s.rxLc.toNat - 1) * 256 + b.toNat + 1 ≤ 768

/-- R127: a payload byte is stored at RX_COUNT and nowhere else, folded and counted, and the last one ends the payload; no
other register changes. -/
def Obligations.PayloadByteIsStored : Prop :=
  ∀ (s : State) (b : Byte) (t : Nat), Ready s → s.rxState = .receivingData → s.rxCount < s.cfg.rxBufSize →
    ∃ m : Memory,
      exec (.receiveByte b t) s = .next { s with
        rxBuf := m
        rxCrc := crcUpdate s.crcUpdate s.rxCrc b
        rxCount := s.rxCount + 1
        rxState := if s.rxCount + 1 = s.rxLen then .expectCrcHigh else .receivingData
        result := none } ∧
      Memory.read s.rxBufFill m s.rxCount = b ∧
      ∀ a, a ≠ s.rxCount → Memory.read s.rxBufFill m a = bufByte s a

/-- R128: the received CRC high octet. -/
def Obligations.CrcHighByteIsKept : Prop :=
  ∀ (s : State) (b : Byte) (t : Nat), Ready s → s.rxState = .expectCrcHigh →
    exec (.receiveByte b t) s = .next { s with rxCrcHi := b, rxState := .expectCrcLow, result := none }

/-- R129: the received CRC low octet ends the frame. The receive timer is cancelled and the parser is at a frame boundary;
if the received CRC is the computed one, the frame is dispatched (R200), and otherwise one BadCrc NACK with the header's
sequence goes out. That the dispatch is the header row of the table, run as an instruction, is the model's choice
(assumption 7). The premise on an empty length-class in the first case is part of the invariant. -/
def Obligations.CrcLowByteEndsTheFrame : Prop :=
  ∀ (s : State) (b : Byte) (t : Nat), Ready s → s.rxState = .expectCrcLow →
    let rx : Timer := { en := false, rem := s.tmrRx.rem - (t - s.tmrRx.last), last := t }
    let ack : Timer := { en := s.tmrAck.en, rem := s.tmrAck.rem - (t - s.tmrAck.last), last := t }
    let ended := { s with
      tmrRx := rx, tmrAck := ack, rxState := .expectPreamble
      trace := s.trace ++ [(commanded t rx ack).1]
      prim := (commanded t rx ack).2 }
    (s.rxCrcHi ++ b = s.rxCrc → (s.rxLc = 0 → s.rxLen = 0 ∧ s.rxCount = 0) →
      exec (.receiveByte b t) s = exec (frameRow s.rxKind s.rxSeq s.rxLc t) ended) ∧
    (s.rxCrcHi ++ b ≠ s.rxCrc →
      exec (.receiveByte b t) s = .next { ended with
        trace := ended.trace ++ wires (encodeFrame s.crcUpdate .nack s.rxSeq [2]), result := none })

/-- R133: every byte value is accepted in every state of the parser. -/
def Obligations.EveryByteIsAccepted : Prop :=
  ∀ (s : State) (b : Byte) (t : Nat), EngineInv s → Ready s → ∃ u, exec (.receiveByte b t) s = .next u

/-- R134, and R135 for a frame after garbage: feeding an encoded frame byte by byte, each byte at whatever sample it comes,
to an engine between frames (in ExpectPreamble or NotPreamble) reaches the dispatch of that frame, with its kind, sequence,
length and payload, and no callback before it; an UNSYNC or SYNC frame ends in its PKTRX. That the dispatch is the header row
of the table, run as an instruction, is the model's choice (assumption 7). -/
def Obligations.EncodedFrameIsReceived : Prop :=
  ∀ (s : State) (kind : Kind) (seq : Seq) (payload : List Byte) (times : List Nat) (t : Nat), Ready s →
    s.rxState = .expectPreamble ∨ s.rxState = .notPreamble → 768 ≤ s.cfg.rxBufSize → payload.length ≤ 768 →
    let frame := encodeFrame s.crcUpdate kind seq payload
    let run := execAll (receiveAt frame (times ++ [t])) s
    times.length + 1 = frame.length →
    ∃ (v : State) (l : List Event),
      run = exec (frameRow kind seq (lengthFields payload.length).1 t) v ∧
      Ready v ∧ v.rxState = .expectPreamble ∧ v.rxKind = kind ∧ v.rxSeq = seq ∧
      v.rxLen = payload.length ∧ rxPayload v = .ok payload ∧
      v.trace = s.trace ++ l ∧ (∀ e ∈ l, isCallback e = false) ∧
      (kind = .unsync ∨ kind = .sync →
        ∃ u, run = .next u ∧ u.ctx = .inRxCallback ∧ u.trace = v.trace ++ [.pktRx kind seq payload])

/-- R135: a run of bytes without 0x5A between frames, each at whatever sample it comes, is forwarded byte by byte, in order,
if the callback is configured, and changes nothing else but the parser's state between frames. A frame that follows is
EncodedFrameIsReceived, which starts from NotPreamble as well. -/
def Obligations.GarbageIsForwardedInOrder : Prop :=
  ∀ (s : State) (bytes : List Byte) (times : List Nat), Ready s →
    s.rxState = .expectPreamble ∨ s.rxState = .notPreamble → bytes ≠ [] → (∀ b ∈ bytes, b ≠ 0x5A) →
    times.length = bytes.length →
    execAll (receiveAt bytes times) s = .next { s with
      rxState := .notPreamble
      trace := s.trace ++ (if s.cfg.hasNonprotocolCb then bytes.map Event.nonProto else [])
      result := none }

/-! ## Timer multiplexer -/

/-- R150: `accrue`. -/
def Obligations.AccrueSubtractsElapsedTime : Prop :=
  ∀ (t : Nat) (s : State), accrue t s = { s with
    tmrRx := { en := s.tmrRx.en, rem := s.tmrRx.rem - (t - s.tmrRx.last), last := t }
    tmrAck := { en := s.tmrAck.en, rem := s.tmrAck.rem - (t - s.tmrAck.last), last := t } }

/-- R151: `reschedule` commands the soonest enabled deadline, or cancels. -/
def Obligations.RescheduleCommandsTheSoonest : Prop :=
  ∀ (t : Nat) (s : State), reschedule t s = { s with
    trace := s.trace ++ [(commanded t s.tmrRx s.tmrAck).1]
    prim := (commanded t s.tmrRx s.tmrAck).2 }

/-- R152, R153: `mux_set` and `mux_cancel` accrue both timers, set or disable the one named, and reschedule. -/
def Obligations.SetAndCancelOfATimer : Prop :=
  ∀ (d t : Nat) (s : State),
    let rx : Timer := { en := s.tmrRx.en, rem := s.tmrRx.rem - (t - s.tmrRx.last), last := t }
    let ack : Timer := { en := s.tmrAck.en, rem := s.tmrAck.rem - (t - s.tmrAck.last), last := t }
    let on : Timer := { en := true, rem := d, last := t }
    let after := fun (r a : Timer) => { s with
      tmrRx := r, tmrAck := a, trace := s.trace ++ [(commanded t r a).1], prim := (commanded t r a).2 }
    muxSet .rx d t s = after on ack ∧ muxSet .ack d t s = after rx on ∧
    muxCancel .rx t s = after { rx with en := false } ack ∧
    muxCancel .ack t s = after rx { ack with en := false }

/-- R158: however many updates come in between, in time order, the remaining delta is what was set less the whole elapsed
time. -/
def Obligations.ElapsedTimeDoesNotDrift : Prop :=
  ∀ (T : TimerId) (s : State) (d t0 t1 : Nat) (ts : List Nat),
    (timer T s).rem = d → (timer T s).last = t0 → risesTo t0 t1 ts → ts ≠ [] →
    (timer T (ts.foldl (fun u t => accrue t u) s)).rem = d - (t1 - t0) ∧
    (timer T (ts.foldl (fun u t => accrue t u) s)).last = t1 ∧
    (timer T (ts.foldl (fun u t => accrue t u) s)).en = (timer T s).en

/-- R157: after every multiplexer operation and every tick, `PRIM` is armed for the minimum remaining delta of the enabled
timers, or idle when none is enabled. -/
def Obligations.PrimFollowsEveryTimerOperation : Prop :=
  (∀ (T : TimerId) (d t : Nat) (s : State),
    (muxSet T d t s).prim = (commanded t (muxSet T d t s).tmrRx (muxSet T d t s).tmrAck).2 ∧
    (muxCancel T t s).prim = (commanded t (muxCancel T t s).tmrRx (muxCancel T t s).tmrAck).2) ∧
  (∀ (s u : State) (t : Nat), Ready s → exec (.tick t) s = .next u →
    u.prim = (commanded t u.tmrRx u.tmrAck).2)

/-- R154: a tick that finds no enabled timer at zero fires nothing: it accrues and reschedules. -/
def Obligations.TickWithNothingDueFiresNothing : Prop :=
  ∀ (s : State) (t : Nat), Ready s →
    let rx : Timer := { en := s.tmrRx.en, rem := s.tmrRx.rem - (t - s.tmrRx.last), last := t }
    let ack : Timer := { en := s.tmrAck.en, rem := s.tmrAck.rem - (t - s.tmrAck.last), last := t }
    ¬ (rx.en = true ∧ rx.rem = 0) → ¬ (ack.en = true ∧ ack.rem = 0) →
    exec (.tick t) s = .next { s with
      tmrRx := rx, tmrAck := ack
      trace := s.trace ++ [(commanded t rx ack).1], prim := (commanded t rx ack).2, result := none }

/-- R131, R155, R156: a tick in which only the receive timer is due sends one RxTimeout NACK with the best-known sequence,
disables the timer and puts the parser at a frame boundary. -/
def Obligations.ReceiveTimeoutSendsNack : Prop :=
  ∀ (s : State) (t : Nat), Ready s →
    let rx : Timer := { en := false, rem := s.tmrRx.rem - (t - s.tmrRx.last), last := t }
    let ack : Timer := { en := s.tmrAck.en, rem := s.tmrAck.rem - (t - s.tmrAck.last), last := t }
    s.tmrRx.en = true → rx.rem = 0 → ¬ (ack.en = true ∧ ack.rem = 0) →
    exec (.tick t) s = .next { s with
      tmrRx := rx, tmrAck := ack, rxState := .expectPreamble
      trace := s.trace ++ wires (encodeFrame s.crcUpdate .nack s.rxSeq [3]) ++ [(commanded t rx ack).1]
      prim := (commanded t rx ack).2, result := none }

/-- R155, R156, R178: a tick in which the ack timer is due for an outstanding packet, and perhaps the receive timer too.
The RxTimeout NACK comes first; then the retransmission with its timer command, or the TIMEOUT; then the one reschedule. -/
def Obligations.AckTimeoutFollowsReceiveTimeout : Prop :=
  ∀ (s : State) (t : Nat), Ready s → s.awaitingAck = true → s.tmrAck.en = true →
    s.tmrAck.rem - (t - s.tmrAck.last) = 0 →
    let fireRx := s.tmrRx.en = true ∧ s.tmrRx.rem - (t - s.tmrRx.last) = 0
    let spent := s.cfg.maxRetries < s.retryCount + 1
    let rx : Timer := { en := s.tmrRx.en && !decide fireRx, rem := s.tmrRx.rem - (t - s.tmrRx.last), last := t }
    let ack : Timer :=
      if spent then { en := false, rem := 0, last := t } else { en := true, rem := s.cfg.retryDelay, last := t }
    let command := (commanded t rx ack).1
    exec (.tick t) s = .next { s with
      tmrRx := rx, tmrAck := ack
      rxState := if fireRx then .expectPreamble else s.rxState
      retryCount := s.retryCount + 1
      awaitingAck := !decide spent
      txSequence := if spent then nextSeq s.txSequence else s.txSequence
      trace := s.trace ++ (if fireRx then wires (encodeFrame s.crcUpdate .nack s.rxSeq [3]) else []) ++
        (if spent then [.timeout s.txSeq s.txPayload] else wires s.txFrame ++ [command]) ++ [command]
      prim := (commanded t rx ack).2, result := none }

/-! ## Transmit and retry -/

/-- R172: `next_seq` maps 1..15 onto 1..15, wrapping 15 to 1. -/
def Obligations.NextSeqWrapsSkippingZero : Prop :=
  nextSeq 15 = 1 ∧ (∀ s : Seq, s ≠ 15 → nextSeq s = s + 1) ∧ (∀ s : Seq, s ≠ 0 → nextSeq s ≠ 0) ∧
  (∀ s : Seq, s ≠ 0 → ∃ r : Seq, r ≠ 0 ∧ nextSeq r = s)

/-- R175: a synchronized transmit while a packet is outstanding returns Busy, writes nothing and emits nothing; an
unsynchronized transmit is never busy. -/
def Obligations.SecondSyncTransmitIsBusy : Prop :=
  (∀ (s : State) (p : List Byte) (t : Nat), Ready s → p.length ≤ 768 → s.awaitingAck = true →
    exec (.transmit true p t) s = .next { s with result := some .busy }) ∧
  (∀ (s : State) (p : List Byte) (t : Nat), Ready s → p.length ≤ 768 →
    ∃ u, exec (.transmit false p t) s = .next u ∧ u.result = some .ok)

/-- R176: the send path. A synchronized packet goes out with `TX_SEQUENCE`, is kept for retransmission and arms the ack
timer; an unsynchronized one goes out with sequence 0, writes no state and arms no timer. -/
def Obligations.TransmitSendsTheFrame : Prop :=
  (∀ (s : State) (p : List Byte) (t : Nat), Ready s → p.length ≤ 768 → s.awaitingAck = false →
    let frame := encodeFrame s.crcUpdate .sync s.txSequence p
    let rx : Timer := { en := s.tmrRx.en, rem := s.tmrRx.rem - (t - s.tmrRx.last), last := t }
    let ack : Timer := { en := true, rem := s.cfg.retryDelay, last := t }
    exec (.transmit true p t) s = .next { s with
      txSeq := s.txSequence, txPayload := p, txFrame := frame, txValid := true
      awaitingAck := true, retryCount := 0, tmrRx := rx, tmrAck := ack
      trace := s.trace ++ wires frame ++ [(commanded t rx ack).1]
      prim := (commanded t rx ack).2, result := some .ok }) ∧
  (∀ (s : State) (p : List Byte) (t : Nat), Ready s → p.length ≤ 768 →
    exec (.transmit false p t) s = .next { s with
      trace := s.trace ++ wires (encodeFrame s.crcUpdate .unsync 0 p), result := some .ok })

/-- R178: `ack_timeout_trigger`. -/
def Obligations.AckTimeoutTriggerRetriesOrAbandons : Prop :=
  (∀ (t : Nat) (s : State), s.awaitingAck = false → ackTimeoutTrigger t s = s) ∧
  (∀ (t : Nat) (s : State), s.awaitingAck = true → s.cfg.maxRetries < s.retryCount + 1 →
    ackTimeoutTrigger t s = { s with
      retryCount := s.retryCount + 1, awaitingAck := false, txSequence := nextSeq s.txSequence
      trace := s.trace ++ [.timeout s.txSeq s.txPayload] }) ∧
  (∀ (t : Nat) (s : State), s.awaitingAck = true → s.retryCount + 1 ≤ s.cfg.maxRetries →
    ackTimeoutTrigger t s = muxSet .ack s.cfg.retryDelay t { s with
      retryCount := s.retryCount + 1, trace := s.trace ++ wires s.txFrame })

/-- R179, with no frame in progress and no answer: with N retries, ticks at or after each deadline make exactly N
retransmissions of the stored frame and then one TIMEOUT, after which nothing is outstanding. -/
def Obligations.RetriesAreExhaustedAfterN : Prop :=
  ∀ (s : State) (t0 : Nat) (ts : List Nat), Ready s → s.awaitingAck = true → s.retryCount = 0 →
    s.tmrRx.en = false → s.tmrAck = { en := true, rem := s.cfg.retryDelay, last := t0 } →
    ts.length = s.cfg.maxRetries + 1 → spacedBy s.cfg.retryDelay t0 ts →
    ∃ u, execAll (ts.map Instr.tick) s = .next u ∧
      u.trace = s.trace ++
        (List.replicate s.cfg.maxRetries
          (wires s.txFrame ++ [.arm s.cfg.retryDelay, .arm s.cfg.retryDelay])).flatten ++
        [.timeout s.txSeq s.txPayload, .cancel] ∧
      u.awaitingAck = false ∧ u.txSequence = nextSeq s.txSequence ∧ u.tmrAck.en = false ∧ u.prim = .idle

/-- R177: while a packet is outstanding, no instruction but init changes the TX store. -/
def Obligations.OutstandingPacketIsKept : Prop :=
  ∀ (i : Instr) (s t : State), s.awaitingAck = true → isInit i = false → exec i s = .next t →
    SameTxStore s t

/-! ## ACK/NACK correlator -/

/-- R181: an ACK for the outstanding packet cancels the ack timer, settles the packet, advances the sequence and delivers
the payload; any other ACK does nothing. The payload is the one the buffer holds. That the HDR_ACK row is an instruction,
which passes the checks of `receive_byte` and leaves its header in the parser's registers as R125 does, is the model's
choice (assumption 7). -/
def Obligations.AckSettlesTheOutstandingPacket : Prop :=
  ∀ (s : State) (seq : Seq) (len : LenClass) (t : Nat) (p : List Byte), Ready s →
    let h := { s with
      rxKind := .ack, rxSeq := seq, rxLc := len
      rxLen := if len = 0 then 0 else s.rxLen, rxCount := if len = 0 then 0 else s.rxCount, result := none }
    rxPayload h = .ok p →
    (s.awaitingAck = true ∧ seq = s.txSeq →
      let rx : Timer := { en := s.tmrRx.en, rem := s.tmrRx.rem - (t - s.tmrRx.last), last := t }
      let ack : Timer := { en := false, rem := s.tmrAck.rem - (t - s.tmrAck.last), last := t }
      exec (.hdrAck seq len t) s = .next { h with
        tmrRx := rx, tmrAck := ack, awaitingAck := false, txSequence := nextSeq s.txSequence
        trace := s.trace ++ [(commanded t rx ack).1, .ackRx seq p]
        prim := (commanded t rx ack).2 }) ∧
    (¬ (s.awaitingAck = true ∧ seq = s.txSeq) → exec (.hdrAck seq len t) s = .next h)

/-- R182: a NACK for the outstanding packet with code NotPreamble or NotReady does nothing, with any other code it cancels
the ack timer and runs the retry trigger; any other NACK does nothing. A NACK frame's code is its first payload byte, and
a freshly drawn byte if it has none, drawn only where it is looked at. That the HDR_NACK row and the NACK code rows are
instructions, the first with its header left in the parser's registers, is the model's choice (assumption 7); so is the
counter that the drawn byte is taken at (assumption 3). -/
def Obligations.NackWaitsOrRetransmits : Prop :=
  let after := fun (seq : Seq) (code : Byte) (t : Nat) (u : State) =>
    if u.awaitingAck = true ∧ seq = u.txSeq ∧ code ≠ 1 ∧ code ≠ 4 then
      { ackTimeoutTrigger t (muxCancel .ack t u) with result := none }
    else { u with result := none }
  (∀ (s : State) (t : Nat) (code : Byte), Ready s →
    exec (.nackNotPreamble t) s = .next (after s.rxSeq 1 t s) ∧
    exec (.nackBadCrc t) s = .next (after s.rxSeq 2 t s) ∧
    exec (.nackRxTimeout t) s = .next (after s.rxSeq 3 t s) ∧
    exec (.nackNotReady t) s = .next (after s.rxSeq 4 t s) ∧
    exec (.nackOther code t) s = .next (after s.rxSeq code t s)) ∧
  (∀ (s : State) (seq : Seq) (len : LenClass) (t : Nat) (p : List Byte), Ready s →
    let h := { s with
      rxKind := .nack, rxSeq := seq, rxLc := len
      rxLen := if len = 0 then 0 else s.rxLen, rxCount := if len = 0 then 0 else s.rxCount }
    rxPayload h = .ok p →
    exec (.hdrNack seq len t) s = .next
      (match p with
       | code :: _ => after seq code t h
       | [] =>
         if s.awaitingAck = true ∧ seq = s.txSeq then
           after seq (Config.drawByte s.draws) t { h with draws := s.draws + 1 }
         else { h with result := none }))

/-! ## RX dispatch -/

/-- R201: an UNSYNC or SYNC frame opens a window: the flag is cleared, the mode is InRxCallback, and PKTRX carries the
kind, the sequence and the payload. That the two header rows are instructions, which leave their header in the parser's
registers as R125 does, is the model's choice (assumption 7); nothing else changes. -/
def Obligations.ValidFrameOpensAWindow : Prop :=
  ∀ (s : State) (seq : Seq) (len : LenClass) (p : List Byte), Ready s →
    let after := fun (kind : Kind) => { s with
      rxKind := kind, rxSeq := seq, rxLc := len
      rxLen := if len = 0 then 0 else s.rxLen, rxCount := if len = 0 then 0 else s.rxCount
      rxUserAcked := false, ctx := .inRxCallback
      trace := s.trace ++ [.pktRx kind seq p], result := none }
    rxPayload { s with rxLen := if len = 0 then 0 else s.rxLen } = .ok p →
    exec (.hdrUnsync seq len) s = .next (after .unsync) ∧ exec (.hdrSync seq len) s = .next (after .sync)

/-- The rows decoded on the wire pass the checks of `receive_byte`: inside a window each raises Reentrant and does nothing
else (R222, R223). That these rows are instructions of their own is the model's choice (assumption 7). -/
def Obligations.WireRowsInAWindowAreReentrant : Prop :=
  ∀ (s : State) (seq : Seq) (len : LenClass) (code : Byte) (t : Nat) (i : Instr), InWindow s →
    i ∈ ([.preamble t, .hdrUnsync seq len, .hdrSync seq len, .hdrAck seq len t, .hdrNack seq len t,
      .nackNotPreamble t, .nackBadCrc t, .nackRxTimeout t, .nackNotReady t, .nackOther code t] : List Instr) →
    exec i s = .next { s with fault := some .reentrant }

/-- R202: the callback's return closes the window and, for a SYNC frame that was not answered, sends an empty ACK with the
frame's sequence; with no window open it raises NoWindow; after a fault it is refused. -/
def Obligations.CallbackReturnSendsAutoAck : Prop :=
  (∀ s : State, InWindow s →
    exec .cbReturn s = .next { s with
      ctx := .idle
      trace := s.trace ++
        (if s.rxKind = .sync ∧ s.rxUserAcked = false then wires (encodeFrame s.crcUpdate .ack s.rxSeq []) else [])
      result := none }) ∧
  (∀ s : State, Ready s → exec .cbReturn s = .next { s with fault := some .noWindow }) ∧
  (∀ (s : State) (f : EngineFault), s.fault = some f → exec .cbReturn s = .refused (.engineFaulted f))

/-- R203: the explicit reply sends an ACK with the frame's sequence and the caller's payload and suppresses the auto-ACK;
outside a window it returns InvalidState and does nothing; a payload above 768 bytes in a window is a fault;
after a fault it is refused. -/
def Obligations.ReplyAckSendsAnAck : Prop :=
  (∀ (s : State) (p : List Byte), InWindow s → p.length ≤ 768 →
    exec (.replyAck p) s = .next { s with
      trace := s.trace ++ wires (encodeFrame s.crcUpdate .ack s.rxSeq p), rxUserAcked := true, result := some .ok }) ∧
  (∀ (s : State) (p : List Byte), Ready s →
    exec (.replyAck p) s = .next { s with result := some .invalidState }) ∧
  (∀ (s : State) (p : List Byte), InWindow s → 768 < p.length →
    exec (.replyAck p) s = .next { s with fault := some .payloadTooLong }) ∧
  (∀ (s : State) (p : List Byte) (f : EngineFault), s.fault = some f →
    exec (.replyAck p) s = .refused (.engineFaulted f))

/-! ## Invariants and whole-machine rules -/

/-- The invariant of the engine (R37, R38, R41, R43, R45, R48, R49, R50, R61, R64, R86, R112) is kept by every step. -/
def Obligations.EveryStepKeepsTheInvariant : Prop :=
  ∀ s t : State, EngineInv s → step s = .next t → EngineInv t

/-- R54: `PRIM` mirrors the sooner of the enabled deadlines after every instruction. For init the premise of R253 is
taken: the host's timer is idle when it is issued. -/
def Obligations.EveryInstructionKeepsThePrimMirror : Prop :=
  ∀ (i : Instr) (s t : State), PrimMirrors s → (isInit i = true → s.prim = .idle) → exec i s = .next t →
    PrimMirrors t

/-- R61, R69: from a state that meets the invariant no step stops the machine: no access to the receive buffer is out of
bounds (the stop is assumption 4). -/
def Obligations.NoStepFaults : Prop :=
  ∀ (s : State) (f : Fault), EngineInv s → step s ≠ .fault f

/-- R24, R72: an instruction appends to the trace and never rewrites it. -/
def Obligations.TraceOnlyGrows : Prop :=
  ∀ (i : Instr) (s t : State), exec i s = .next t → ∃ l, t.trace = s.trace ++ l

/-- R43, R183: `TX_SEQUENCE` stays, or moves to the next number exactly when the outstanding packet is settled, or init
sets it to 1. -/
def Obligations.SequenceAdvancesOnlyWhenSettled : Prop :=
  ∀ (i : Instr) (s t : State), exec i s = .next t →
    (isInit i = true ∧ t.fault = none ∧ t.txSequence = 1) ∨
    (s.awaitingAck = true ∧ t.awaitingAck = false ∧ t.txSequence = nextSeq s.txSequence) ∨
    (t.txSequence = s.txSequence ∧ (s.awaitingAck = true → t.awaitingAck = true))

/-- R19: no instruction writes the parameter `CRC_UPDATE`, not even init; its default, which State.reset holds, is the
function of R110. That it stands in State is the model's choice (assumption 6). -/
def Obligations.CrcUpdateIsAParameter : Prop :=
  (∀ (i : Instr) (s t : State), exec i s = .next t → t.crcUpdate = s.crcUpdate) ∧
  State.reset.crcUpdate = .reconstructed ∧ crcUpdate .reconstructed = crc16Update

/-- R32: the configuration is written by init alone. -/
def Obligations.ConfigurationIsWrittenByInitOnly : Prop :=
  (∀ (i : Instr) (s t : State), isInit i = false → exec i s = .next t → t.cfg = s.cfg) ∧
  (∀ (c : Cfg) (s t : State), exec (.init c) s = .next t → t.cfg = c ∨ t.cfg = s.cfg)

/-- R50, R228, R231: a window opens only with a PKTRX as the last event, and closes only by cb_return or init. -/
def Obligations.ModeChangesOnlyByItsRules : Prop :=
  ∀ (i : Instr) (s t : State), exec i s = .next t →
    (s.ctx = .idle → t.ctx = .inRxCallback → ∃ kind seq p l, t.trace = s.trace ++ l ++ [.pktRx kind seq p]) ∧
    (s.ctx = .inRxCallback → t.ctx = .idle → i = .cbReturn ∨ isInit i = true)

/-- R61, R62: the receive buffer keeps its canonical form, no instruction but a received byte (and init, which brings the
buffer) changes any byte of it, and a received byte changes only the one at RX_COUNT, while the parser receives data. -/
def Obligations.BufferIsWrittenAtRxCountOnly : Prop :=
  (∀ (i : Instr) (s t : State), Memory.wf s.rxBufFill s.rxBuf = true → exec i s = .next t →
    Memory.wf t.rxBufFill t.rxBuf = true) ∧
  (∀ (i : Instr) (s t : State), isInit i = false → takesByte i = false → exec i s = .next t →
    ∀ a, bufByte t a = bufByte s a) ∧
  (∀ (i : Instr) (s t : State), takesByte i = true → exec i s = .next t →
    ∀ a, s.rxState ≠ .receivingData ∨ a ≠ s.rxCount → bufByte t a = bufByte s a)
end

