-- ==== Sys2Proof/Laws/State.lean ====
section
/-! SUPPORT. For every operation that updates the state, one lemma per field: the fields it leaves alone and the values of those it
writes: by rfl for a record update, by the lemmas of its parts for a composed operation. Later proofs rewrite with these and never unfold a record update. -/

namespace Sys2Proof.Machine

variable (s : State)

/-! ### `emit` -/

@[simp] theorem emit_cfg (e : Event) : (emit e s).cfg = s.cfg := rfl
@[simp] theorem emit_crcUpdate (e : Event) : (emit e s).crcUpdate = s.crcUpdate := rfl
@[simp] theorem emit_inited (e : Event) : (emit e s).inited = s.inited := rfl
@[simp] theorem emit_rxState (e : Event) : (emit e s).rxState = s.rxState := rfl
@[simp] theorem emit_rxKind (e : Event) : (emit e s).rxKind = s.rxKind := rfl
@[simp] theorem emit_rxSeq (e : Event) : (emit e s).rxSeq = s.rxSeq := rfl
@[simp] theorem emit_rxLc (e : Event) : (emit e s).rxLc = s.rxLc := rfl
@[simp] theorem emit_rxLen (e : Event) : (emit e s).rxLen = s.rxLen := rfl
@[simp] theorem emit_rxCount (e : Event) : (emit e s).rxCount = s.rxCount := rfl
@[simp] theorem emit_rxCrc (e : Event) : (emit e s).rxCrc = s.rxCrc := rfl
@[simp] theorem emit_rxCrcHi (e : Event) : (emit e s).rxCrcHi = s.rxCrcHi := rfl
@[simp] theorem emit_rxBuf (e : Event) : (emit e s).rxBuf = s.rxBuf := rfl
@[simp] theorem emit_rxBufFill (e : Event) : (emit e s).rxBufFill = s.rxBufFill := rfl
@[simp] theorem emit_txValid (e : Event) : (emit e s).txValid = s.txValid := rfl
@[simp] theorem emit_txSeq (e : Event) : (emit e s).txSeq = s.txSeq := rfl
@[simp] theorem emit_txPayload (e : Event) : (emit e s).txPayload = s.txPayload := rfl
@[simp] theorem emit_txFrame (e : Event) : (emit e s).txFrame = s.txFrame := rfl
@[simp] theorem emit_txSequence (e : Event) : (emit e s).txSequence = s.txSequence := rfl
@[simp] theorem emit_awaitingAck (e : Event) : (emit e s).awaitingAck = s.awaitingAck := rfl
@[simp] theorem emit_retryCount (e : Event) : (emit e s).retryCount = s.retryCount := rfl
@[simp] theorem emit_tmrRx (e : Event) : (emit e s).tmrRx = s.tmrRx := rfl
@[simp] theorem emit_tmrAck (e : Event) : (emit e s).tmrAck = s.tmrAck := rfl
@[simp] theorem emit_ctx (e : Event) : (emit e s).ctx = s.ctx := rfl
@[simp] theorem emit_rxUserAcked (e : Event) : (emit e s).rxUserAcked = s.rxUserAcked := rfl
@[simp] theorem emit_fault (e : Event) : (emit e s).fault = s.fault := rfl
@[simp] theorem emit_prim (e : Event) : (emit e s).prim = s.prim := rfl
@[simp] theorem emit_trace (e : Event) : (emit e s).trace = s.trace ++ [e] := rfl
@[simp] theorem emit_result (e : Event) : (emit e s).result = s.result := rfl
@[simp] theorem emit_pending (e : Event) : (emit e s).pending = s.pending := rfl
@[simp] theorem emit_draws (e : Event) : (emit e s).draws = s.draws := rfl

/-! ### `emitFrame` -/

@[simp] theorem emitFrame_cfg (bs : List Byte) : (emitFrame bs s).cfg = s.cfg := rfl
@[simp] theorem emitFrame_crcUpdate (bs : List Byte) : (emitFrame bs s).crcUpdate = s.crcUpdate := rfl
@[simp] theorem emitFrame_inited (bs : List Byte) : (emitFrame bs s).inited = s.inited := rfl
@[simp] theorem emitFrame_rxState (bs : List Byte) : (emitFrame bs s).rxState = s.rxState := rfl
@[simp] theorem emitFrame_rxKind (bs : List Byte) : (emitFrame bs s).rxKind = s.rxKind := rfl
@[simp] theorem emitFrame_rxSeq (bs : List Byte) : (emitFrame bs s).rxSeq = s.rxSeq := rfl
@[simp] theorem emitFrame_rxLc (bs : List Byte) : (emitFrame bs s).rxLc = s.rxLc := rfl
@[simp] theorem emitFrame_rxLen (bs : List Byte) : (emitFrame bs s).rxLen = s.rxLen := rfl
@[simp] theorem emitFrame_rxCount (bs : List Byte) : (emitFrame bs s).rxCount = s.rxCount := rfl
@[simp] theorem emitFrame_rxCrc (bs : List Byte) : (emitFrame bs s).rxCrc = s.rxCrc := rfl
@[simp] theorem emitFrame_rxCrcHi (bs : List Byte) : (emitFrame bs s).rxCrcHi = s.rxCrcHi := rfl
@[simp] theorem emitFrame_rxBuf (bs : List Byte) : (emitFrame bs s).rxBuf = s.rxBuf := rfl
@[simp] theorem emitFrame_rxBufFill (bs : List Byte) : (emitFrame bs s).rxBufFill = s.rxBufFill := rfl
@[simp] theorem emitFrame_txValid (bs : List Byte) : (emitFrame bs s).txValid = s.txValid := rfl
@[simp] theorem emitFrame_txSeq (bs : List Byte) : (emitFrame bs s).txSeq = s.txSeq := rfl
@[simp] theorem emitFrame_txPayload (bs : List Byte) : (emitFrame bs s).txPayload = s.txPayload := rfl
@[simp] theorem emitFrame_txFrame (bs : List Byte) : (emitFrame bs s).txFrame = s.txFrame := rfl
@[simp] theorem emitFrame_txSequence (bs : List Byte) : (emitFrame bs s).txSequence = s.txSequence := rfl
@[simp] theorem emitFrame_awaitingAck (bs : List Byte) : (emitFrame bs s).awaitingAck = s.awaitingAck := rfl
@[simp] theorem emitFrame_retryCount (bs : List Byte) : (emitFrame bs s).retryCount = s.retryCount := rfl
@[simp] theorem emitFrame_tmrRx (bs : List Byte) : (emitFrame bs s).tmrRx = s.tmrRx := rfl
@[simp] theorem emitFrame_tmrAck (bs : List Byte) : (emitFrame bs s).tmrAck = s.tmrAck := rfl
@[simp] theorem emitFrame_ctx (bs : List Byte) : (emitFrame bs s).ctx = s.ctx := rfl
@[simp] theorem emitFrame_rxUserAcked (bs : List Byte) : (emitFrame bs s).rxUserAcked = s.rxUserAcked := rfl
@[simp] theorem emitFrame_fault (bs : List Byte) : (emitFrame bs s).fault = s.fault := rfl
@[simp] theorem emitFrame_prim (bs : List Byte) : (emitFrame bs s).prim = s.prim := rfl
@[simp] theorem emitFrame_trace (bs : List Byte) : (emitFrame bs s).trace = s.trace ++ bs.map Event.wire := rfl
@[simp] theorem emitFrame_result (bs : List Byte) : (emitFrame bs s).result = s.result := rfl
@[simp] theorem emitFrame_pending (bs : List Byte) : (emitFrame bs s).pending = s.pending := rfl
@[simp] theorem emitFrame_draws (bs : List Byte) : (emitFrame bs s).draws = s.draws := rfl

/-! ### `sendFrame` -/

@[simp] theorem sendFrame_cfg (k : Kind) (q : Seq) (p : List Byte) : (sendFrame k q p s).cfg = s.cfg := by simp [sendFrame]
@[simp] theorem sendFrame_crcUpdate (k : Kind) (q : Seq) (p : List Byte) : (sendFrame k q p s).crcUpdate = s.crcUpdate := by simp [sendFrame]
@[simp] theorem sendFrame_inited (k : Kind) (q : Seq) (p : List Byte) : (sendFrame k q p s).inited = s.inited := by simp [sendFrame]
@[simp] theorem sendFrame_rxState (k : Kind) (q : Seq) (p : List Byte) : (sendFrame k q p s).rxState = s.rxState := by simp [sendFrame]
@[simp] theorem sendFrame_rxKind (k : Kind) (q : Seq) (p : List Byte) : (sendFrame k q p s).rxKind = s.rxKind := by simp [sendFrame]
@[simp] theorem sendFrame_rxSeq (k : Kind) (q : Seq) (p : List Byte) : (sendFrame k q p s).rxSeq = s.rxSeq := by simp [sendFrame]
@[simp] theorem sendFrame_rxLc (k : Kind) (q : Seq) (p : List Byte) : (sendFrame k q p s).rxLc = s.rxLc := by simp [sendFrame]
@[simp] theorem sendFrame_rxLen (k : Kind) (q : Seq) (p : List Byte) : (sendFrame k q p s).rxLen = s.rxLen := by simp [sendFrame]
@[simp] theorem sendFrame_rxCount (k : Kind) (q : Seq) (p : List Byte) : (sendFrame k q p s).rxCount = s.rxCount := by simp [sendFrame]
@[simp] theorem sendFrame_rxCrc (k : Kind) (q : Seq) (p : List Byte) : (sendFrame k q p s).rxCrc = s.rxCrc := by simp [sendFrame]
@[simp] theorem sendFrame_rxCrcHi (k : Kind) (q : Seq) (p : List Byte) : (sendFrame k q p s).rxCrcHi = s.rxCrcHi := by simp [sendFrame]
@[simp] theorem sendFrame_rxBuf (k : Kind) (q : Seq) (p : List Byte) : (sendFrame k q p s).rxBuf = s.rxBuf := by simp [sendFrame]
@[simp] theorem sendFrame_rxBufFill (k : Kind) (q : Seq) (p : List Byte) : (sendFrame k q p s).rxBufFill = s.rxBufFill := by simp [sendFrame]
@[simp] theorem sendFrame_txValid (k : Kind) (q : Seq) (p : List Byte) : (sendFrame k q p s).txValid = s.txValid := by simp [sendFrame]
@[simp] theorem sendFrame_txSeq (k : Kind) (q : Seq) (p : List Byte) : (sendFrame k q p s).txSeq = s.txSeq := by simp [sendFrame]
@[simp] theorem sendFrame_txPayload (k : Kind) (q : Seq) (p : List Byte) : (sendFrame k q p s).txPayload = s.txPayload := by simp [sendFrame]
@[simp] theorem sendFrame_txFrame (k : Kind) (q : Seq) (p : List Byte) : (sendFrame k q p s).txFrame = s.txFrame := by simp [sendFrame]
@[simp] theorem sendFrame_txSequence (k : Kind) (q : Seq) (p : List Byte) : (sendFrame k q p s).txSequence = s.txSequence := by simp [sendFrame]
@[simp] theorem sendFrame_awaitingAck (k : Kind) (q : Seq) (p : List Byte) : (sendFrame k q p s).awaitingAck = s.awaitingAck := by simp [sendFrame]
@[simp] theorem sendFrame_retryCount (k : Kind) (q : Seq) (p : List Byte) : (sendFrame k q p s).retryCount = s.retryCount := by simp [sendFrame]
@[simp] theorem sendFrame_tmrRx (k : Kind) (q : Seq) (p : List Byte) : (sendFrame k q p s).tmrRx = s.tmrRx := by simp [sendFrame]
@[simp] theorem sendFrame_tmrAck (k : Kind) (q : Seq) (p : List Byte) : (sendFrame k q p s).tmrAck = s.tmrAck := by simp [sendFrame]
@[simp] theorem sendFrame_ctx (k : Kind) (q : Seq) (p : List Byte) : (sendFrame k q p s).ctx = s.ctx := by simp [sendFrame]
@[simp] theorem sendFrame_rxUserAcked (k : Kind) (q : Seq) (p : List Byte) : (sendFrame k q p s).rxUserAcked = s.rxUserAcked := by simp [sendFrame]
@[simp] theorem sendFrame_fault (k : Kind) (q : Seq) (p : List Byte) : (sendFrame k q p s).fault = s.fault := by simp [sendFrame]
@[simp] theorem sendFrame_prim (k : Kind) (q : Seq) (p : List Byte) : (sendFrame k q p s).prim = s.prim := by simp [sendFrame]
@[simp] theorem sendFrame_trace (k : Kind) (q : Seq) (p : List Byte) : (sendFrame k q p s).trace = s.trace ++ (encodeFrame s.crcUpdate k q p).map Event.wire := by simp [sendFrame]
@[simp] theorem sendFrame_result (k : Kind) (q : Seq) (p : List Byte) : (sendFrame k q p s).result = s.result := by simp [sendFrame]
@[simp] theorem sendFrame_pending (k : Kind) (q : Seq) (p : List Byte) : (sendFrame k q p s).pending = s.pending := by simp [sendFrame]
@[simp] theorem sendFrame_draws (k : Kind) (q : Seq) (p : List Byte) : (sendFrame k q p s).draws = s.draws := by simp [sendFrame]

/-! ### `sendNack` -/

@[simp] theorem sendNack_cfg (c : Byte) (q : Seq) : (sendNack c q s).cfg = s.cfg := by simp [sendNack]
@[simp] theorem sendNack_crcUpdate (c : Byte) (q : Seq) : (sendNack c q s).crcUpdate = s.crcUpdate := by simp [sendNack]
@[simp] theorem sendNack_inited (c : Byte) (q : Seq) : (sendNack c q s).inited = s.inited := by simp [sendNack]
@[simp] theorem sendNack_rxState (c : Byte) (q : Seq) : (sendNack c q s).rxState = s.rxState := by simp [sendNack]
@[simp] theorem sendNack_rxKind (c : Byte) (q : Seq) : (sendNack c q s).rxKind = s.rxKind := by simp [sendNack]
@[simp] theorem sendNack_rxSeq (c : Byte) (q : Seq) : (sendNack c q s).rxSeq = s.rxSeq := by simp [sendNack]
@[simp] theorem sendNack_rxLc (c : Byte) (q : Seq) : (sendNack c q s).rxLc = s.rxLc := by simp [sendNack]
@[simp] theorem sendNack_rxLen (c : Byte) (q : Seq) : (sendNack c q s).rxLen = s.rxLen := by simp [sendNack]
@[simp] theorem sendNack_rxCount (c : Byte) (q : Seq) : (sendNack c q s).rxCount = s.rxCount := by simp [sendNack]
@[simp] theorem sendNack_rxCrc (c : Byte) (q : Seq) : (sendNack c q s).rxCrc = s.rxCrc := by simp [sendNack]
@[simp] theorem sendNack_rxCrcHi (c : Byte) (q : Seq) : (sendNack c q s).rxCrcHi = s.rxCrcHi := by simp [sendNack]
@[simp] theorem sendNack_rxBuf (c : Byte) (q : Seq) : (sendNack c q s).rxBuf = s.rxBuf := by simp [sendNack]
@[simp] theorem sendNack_rxBufFill (c : Byte) (q : Seq) : (sendNack c q s).rxBufFill = s.rxBufFill := by simp [sendNack]
@[simp] theorem sendNack_txValid (c : Byte) (q : Seq) : (sendNack c q s).txValid = s.txValid := by simp [sendNack]
@[simp] theorem sendNack_txSeq (c : Byte) (q : Seq) : (sendNack c q s).txSeq = s.txSeq := by simp [sendNack]
@[simp] theorem sendNack_txPayload (c : Byte) (q : Seq) : (sendNack c q s).txPayload = s.txPayload := by simp [sendNack]
@[simp] theorem sendNack_txFrame (c : Byte) (q : Seq) : (sendNack c q s).txFrame = s.txFrame := by simp [sendNack]
@[simp] theorem sendNack_txSequence (c : Byte) (q : Seq) : (sendNack c q s).txSequence = s.txSequence := by simp [sendNack]
@[simp] theorem sendNack_awaitingAck (c : Byte) (q : Seq) : (sendNack c q s).awaitingAck = s.awaitingAck := by simp [sendNack]
@[simp] theorem sendNack_retryCount (c : Byte) (q : Seq) : (sendNack c q s).retryCount = s.retryCount := by simp [sendNack]
@[simp] theorem sendNack_tmrRx (c : Byte) (q : Seq) : (sendNack c q s).tmrRx = s.tmrRx := by simp [sendNack]
@[simp] theorem sendNack_tmrAck (c : Byte) (q : Seq) : (sendNack c q s).tmrAck = s.tmrAck := by simp [sendNack]
@[simp] theorem sendNack_ctx (c : Byte) (q : Seq) : (sendNack c q s).ctx = s.ctx := by simp [sendNack]
@[simp] theorem sendNack_rxUserAcked (c : Byte) (q : Seq) : (sendNack c q s).rxUserAcked = s.rxUserAcked := by simp [sendNack]
@[simp] theorem sendNack_fault (c : Byte) (q : Seq) : (sendNack c q s).fault = s.fault := by simp [sendNack]
@[simp] theorem sendNack_prim (c : Byte) (q : Seq) : (sendNack c q s).prim = s.prim := by simp [sendNack]
@[simp] theorem sendNack_trace (c : Byte) (q : Seq) : (sendNack c q s).trace = s.trace ++ (encodeFrame s.crcUpdate .nack q [c]).map Event.wire := by simp [sendNack]
@[simp] theorem sendNack_result (c : Byte) (q : Seq) : (sendNack c q s).result = s.result := by simp [sendNack]
@[simp] theorem sendNack_pending (c : Byte) (q : Seq) : (sendNack c q s).pending = s.pending := by simp [sendNack]
@[simp] theorem sendNack_draws (c : Byte) (q : Seq) : (sendNack c q s).draws = s.draws := by simp [sendNack]

/-! ### `latchHeader` -/

@[simp] theorem latchHeader_cfg (k : Kind) (q : Seq) (l : LenClass) : (latchHeader k q l s).cfg = s.cfg := rfl
@[simp] theorem latchHeader_crcUpdate (k : Kind) (q : Seq) (l : LenClass) : (latchHeader k q l s).crcUpdate = s.crcUpdate := rfl
@[simp] theorem latchHeader_inited (k : Kind) (q : Seq) (l : LenClass) : (latchHeader k q l s).inited = s.inited := rfl
@[simp] theorem latchHeader_rxState (k : Kind) (q : Seq) (l : LenClass) : (latchHeader k q l s).rxState = s.rxState := rfl
@[simp] theorem latchHeader_rxKind (k : Kind) (q : Seq) (l : LenClass) : (latchHeader k q l s).rxKind = k := rfl
@[simp] theorem latchHeader_rxSeq (k : Kind) (q : Seq) (l : LenClass) : (latchHeader k q l s).rxSeq = q := rfl
@[simp] theorem latchHeader_rxLc (k : Kind) (q : Seq) (l : LenClass) : (latchHeader k q l s).rxLc = l := rfl
@[simp] theorem latchHeader_rxLen (k : Kind) (q : Seq) (l : LenClass) : (latchHeader k q l s).rxLen = if l = 0 then 0 else s.rxLen := rfl
@[simp] theorem latchHeader_rxCount (k : Kind) (q : Seq) (l : LenClass) : (latchHeader k q l s).rxCount = if l = 0 then 0 else s.rxCount := rfl
@[simp] theorem latchHeader_rxCrc (k : Kind) (q : Seq) (l : LenClass) : (latchHeader k q l s).rxCrc = s.rxCrc := rfl
@[simp] theorem latchHeader_rxCrcHi (k : Kind) (q : Seq) (l : LenClass) : (latchHeader k q l s).rxCrcHi = s.rxCrcHi := rfl
@[simp] theorem latchHeader_rxBuf (k : Kind) (q : Seq) (l : LenClass) : (latchHeader k q l s).rxBuf = s.rxBuf := rfl
@[simp] theorem latchHeader_rxBufFill (k : Kind) (q : Seq) (l : LenClass) : (latchHeader k q l s).rxBufFill = s.rxBufFill := rfl
@[simp] theorem latchHeader_txValid (k : Kind) (q : Seq) (l : LenClass) : (latchHeader k q l s).txValid = s.txValid := rfl
@[simp] theorem latchHeader_txSeq (k : Kind) (q : Seq) (l : LenClass) : (latchHeader k q l s).txSeq = s.txSeq := rfl
@[simp] theorem latchHeader_txPayload (k : Kind) (q : Seq) (l : LenClass) : (latchHeader k q l s).txPayload = s.txPayload := rfl
@[simp] theorem latchHeader_txFrame (k : Kind) (q : Seq) (l : LenClass) : (latchHeader k q l s).txFrame = s.txFrame := rfl
@[simp] theorem latchHeader_txSequence (k : Kind) (q : Seq) (l : LenClass) : (latchHeader k q l s).txSequence = s.txSequence := rfl
@[simp] theorem latchHeader_awaitingAck (k : Kind) (q : Seq) (l : LenClass) : (latchHeader k q l s).awaitingAck = s.awaitingAck := rfl
@[simp] theorem latchHeader_retryCount (k : Kind) (q : Seq) (l : LenClass) : (latchHeader k q l s).retryCount = s.retryCount := rfl
@[simp] theorem latchHeader_tmrRx (k : Kind) (q : Seq) (l : LenClass) : (latchHeader k q l s).tmrRx = s.tmrRx := rfl
@[simp] theorem latchHeader_tmrAck (k : Kind) (q : Seq) (l : LenClass) : (latchHeader k q l s).tmrAck = s.tmrAck := rfl
@[simp] theorem latchHeader_ctx (k : Kind) (q : Seq) (l : LenClass) : (latchHeader k q l s).ctx = s.ctx := rfl
@[simp] theorem latchHeader_rxUserAcked (k : Kind) (q : Seq) (l : LenClass) : (latchHeader k q l s).rxUserAcked = s.rxUserAcked := rfl
@[simp] theorem latchHeader_fault (k : Kind) (q : Seq) (l : LenClass) : (latchHeader k q l s).fault = s.fault := rfl
@[simp] theorem latchHeader_prim (k : Kind) (q : Seq) (l : LenClass) : (latchHeader k q l s).prim = s.prim := rfl
@[simp] theorem latchHeader_trace (k : Kind) (q : Seq) (l : LenClass) : (latchHeader k q l s).trace = s.trace := rfl
@[simp] theorem latchHeader_result (k : Kind) (q : Seq) (l : LenClass) : (latchHeader k q l s).result = s.result := rfl
@[simp] theorem latchHeader_pending (k : Kind) (q : Seq) (l : LenClass) : (latchHeader k q l s).pending = s.pending := rfl
@[simp] theorem latchHeader_draws (k : Kind) (q : Seq) (l : LenClass) : (latchHeader k q l s).draws = s.draws := rfl

/-! ### `openWindow` -/

@[simp] theorem openWindow_cfg (k : Kind) (q : Seq) (p : List Byte) : (openWindow k q p s).cfg = s.cfg := by simp [openWindow]
@[simp] theorem openWindow_crcUpdate (k : Kind) (q : Seq) (p : List Byte) : (openWindow k q p s).crcUpdate = s.crcUpdate := by simp [openWindow]
@[simp] theorem openWindow_inited (k : Kind) (q : Seq) (p : List Byte) : (openWindow k q p s).inited = s.inited := by simp [openWindow]
@[simp] theorem openWindow_rxState (k : Kind) (q : Seq) (p : List Byte) : (openWindow k q p s).rxState = s.rxState := by simp [openWindow]
@[simp] theorem openWindow_rxKind (k : Kind) (q : Seq) (p : List Byte) : (openWindow k q p s).rxKind = s.rxKind := by simp [openWindow]
@[simp] theorem openWindow_rxSeq (k : Kind) (q : Seq) (p : List Byte) : (openWindow k q p s).rxSeq = s.rxSeq := by simp [openWindow]
@[simp] theorem openWindow_rxLc (k : Kind) (q : Seq) (p : List Byte) : (openWindow k q p s).rxLc = s.rxLc := by simp [openWindow]
@[simp] theorem openWindow_rxLen (k : Kind) (q : Seq) (p : List Byte) : (openWindow k q p s).rxLen = s.rxLen := by simp [openWindow]
@[simp] theorem openWindow_rxCount (k : Kind) (q : Seq) (p : List Byte) : (openWindow k q p s).rxCount = s.rxCount := by simp [openWindow]
@[simp] theorem openWindow_rxCrc (k : Kind) (q : Seq) (p : List Byte) : (openWindow k q p s).rxCrc = s.rxCrc := by simp [openWindow]
@[simp] theorem openWindow_rxCrcHi (k : Kind) (q : Seq) (p : List Byte) : (openWindow k q p s).rxCrcHi = s.rxCrcHi := by simp [openWindow]
@[simp] theorem openWindow_rxBuf (k : Kind) (q : Seq) (p : List Byte) : (openWindow k q p s).rxBuf = s.rxBuf := by simp [openWindow]
@[simp] theorem openWindow_rxBufFill (k : Kind) (q : Seq) (p : List Byte) : (openWindow k q p s).rxBufFill = s.rxBufFill := by simp [openWindow]
@[simp] theorem openWindow_txValid (k : Kind) (q : Seq) (p : List Byte) : (openWindow k q p s).txValid = s.txValid := by simp [openWindow]
@[simp] theorem openWindow_txSeq (k : Kind) (q : Seq) (p : List Byte) : (openWindow k q p s).txSeq = s.txSeq := by simp [openWindow]
@[simp] theorem openWindow_txPayload (k : Kind) (q : Seq) (p : List Byte) : (openWindow k q p s).txPayload = s.txPayload := by simp [openWindow]
@[simp] theorem openWindow_txFrame (k : Kind) (q : Seq) (p : List Byte) : (openWindow k q p s).txFrame = s.txFrame := by simp [openWindow]
@[simp] theorem openWindow_txSequence (k : Kind) (q : Seq) (p : List Byte) : (openWindow k q p s).txSequence = s.txSequence := by simp [openWindow]
@[simp] theorem openWindow_awaitingAck (k : Kind) (q : Seq) (p : List Byte) : (openWindow k q p s).awaitingAck = s.awaitingAck := by simp [openWindow]
@[simp] theorem openWindow_retryCount (k : Kind) (q : Seq) (p : List Byte) : (openWindow k q p s).retryCount = s.retryCount := by simp [openWindow]
@[simp] theorem openWindow_tmrRx (k : Kind) (q : Seq) (p : List Byte) : (openWindow k q p s).tmrRx = s.tmrRx := by simp [openWindow]
@[simp] theorem openWindow_tmrAck (k : Kind) (q : Seq) (p : List Byte) : (openWindow k q p s).tmrAck = s.tmrAck := by simp [openWindow]
@[simp] theorem openWindow_ctx (k : Kind) (q : Seq) (p : List Byte) : (openWindow k q p s).ctx = .inRxCallback := by simp [openWindow]
@[simp] theorem openWindow_rxUserAcked (k : Kind) (q : Seq) (p : List Byte) : (openWindow k q p s).rxUserAcked = false := by simp [openWindow]
@[simp] theorem openWindow_fault (k : Kind) (q : Seq) (p : List Byte) : (openWindow k q p s).fault = s.fault := by simp [openWindow]
@[simp] theorem openWindow_prim (k : Kind) (q : Seq) (p : List Byte) : (openWindow k q p s).prim = s.prim := by simp [openWindow]
@[simp] theorem openWindow_trace (k : Kind) (q : Seq) (p : List Byte) : (openWindow k q p s).trace = s.trace ++ [.pktRx k q p] := by simp [openWindow]
@[simp] theorem openWindow_result (k : Kind) (q : Seq) (p : List Byte) : (openWindow k q p s).result = s.result := by simp [openWindow]
@[simp] theorem openWindow_pending (k : Kind) (q : Seq) (p : List Byte) : (openWindow k q p s).pending = s.pending := by simp [openWindow]
@[simp] theorem openWindow_draws (k : Kind) (q : Seq) (p : List Byte) : (openWindow k q p s).draws = s.draws := by simp [openWindow]

/-! ### `sendReply` -/

@[simp] theorem sendReply_cfg (p : List Byte) : (sendReply p s).cfg = s.cfg := by simp [sendReply]
@[simp] theorem sendReply_crcUpdate (p : List Byte) : (sendReply p s).crcUpdate = s.crcUpdate := by simp [sendReply]
@[simp] theorem sendReply_inited (p : List Byte) : (sendReply p s).inited = s.inited := by simp [sendReply]
@[simp] theorem sendReply_rxState (p : List Byte) : (sendReply p s).rxState = s.rxState := by simp [sendReply]
@[simp] theorem sendReply_rxKind (p : List Byte) : (sendReply p s).rxKind = s.rxKind := by simp [sendReply]
@[simp] theorem sendReply_rxSeq (p : List Byte) : (sendReply p s).rxSeq = s.rxSeq := by simp [sendReply]
@[simp] theorem sendReply_rxLc (p : List Byte) : (sendReply p s).rxLc = s.rxLc := by simp [sendReply]
@[simp] theorem sendReply_rxLen (p : List Byte) : (sendReply p s).rxLen = s.rxLen := by simp [sendReply]
@[simp] theorem sendReply_rxCount (p : List Byte) : (sendReply p s).rxCount = s.rxCount := by simp [sendReply]
@[simp] theorem sendReply_rxCrc (p : List Byte) : (sendReply p s).rxCrc = s.rxCrc := by simp [sendReply]
@[simp] theorem sendReply_rxCrcHi (p : List Byte) : (sendReply p s).rxCrcHi = s.rxCrcHi := by simp [sendReply]
@[simp] theorem sendReply_rxBuf (p : List Byte) : (sendReply p s).rxBuf = s.rxBuf := by simp [sendReply]
@[simp] theorem sendReply_rxBufFill (p : List Byte) : (sendReply p s).rxBufFill = s.rxBufFill := by simp [sendReply]
@[simp] theorem sendReply_txValid (p : List Byte) : (sendReply p s).txValid = s.txValid := by simp [sendReply]
@[simp] theorem sendReply_txSeq (p : List Byte) : (sendReply p s).txSeq = s.txSeq := by simp [sendReply]
@[simp] theorem sendReply_txPayload (p : List Byte) : (sendReply p s).txPayload = s.txPayload := by simp [sendReply]
@[simp] theorem sendReply_txFrame (p : List Byte) : (sendReply p s).txFrame = s.txFrame := by simp [sendReply]
@[simp] theorem sendReply_txSequence (p : List Byte) : (sendReply p s).txSequence = s.txSequence := by simp [sendReply]
@[simp] theorem sendReply_awaitingAck (p : List Byte) : (sendReply p s).awaitingAck = s.awaitingAck := by simp [sendReply]
@[simp] theorem sendReply_retryCount (p : List Byte) : (sendReply p s).retryCount = s.retryCount := by simp [sendReply]
@[simp] theorem sendReply_tmrRx (p : List Byte) : (sendReply p s).tmrRx = s.tmrRx := by simp [sendReply]
@[simp] theorem sendReply_tmrAck (p : List Byte) : (sendReply p s).tmrAck = s.tmrAck := by simp [sendReply]
@[simp] theorem sendReply_ctx (p : List Byte) : (sendReply p s).ctx = s.ctx := by simp [sendReply]
@[simp] theorem sendReply_rxUserAcked (p : List Byte) : (sendReply p s).rxUserAcked = true := by simp [sendReply]
@[simp] theorem sendReply_fault (p : List Byte) : (sendReply p s).fault = s.fault := by simp [sendReply]
@[simp] theorem sendReply_prim (p : List Byte) : (sendReply p s).prim = s.prim := by simp [sendReply]
@[simp] theorem sendReply_trace (p : List Byte) : (sendReply p s).trace = s.trace ++ (encodeFrame s.crcUpdate .ack s.rxSeq p).map Event.wire := by simp [sendReply]
@[simp] theorem sendReply_result (p : List Byte) : (sendReply p s).result = s.result := by simp [sendReply]
@[simp] theorem sendReply_pending (p : List Byte) : (sendReply p s).pending = s.pending := by simp [sendReply]
@[simp] theorem sendReply_draws (p : List Byte) : (sendReply p s).draws = s.draws := by simp [sendReply]

/-! ### `setTimer` -/

@[simp] theorem setTimer_cfg (T : TimerId) (tm : Timer) : (setTimer T tm s).cfg = s.cfg := rfl
@[simp] theorem setTimer_crcUpdate (T : TimerId) (tm : Timer) : (setTimer T tm s).crcUpdate = s.crcUpdate := rfl
@[simp] theorem setTimer_inited (T : TimerId) (tm : Timer) : (setTimer T tm s).inited = s.inited := rfl
@[simp] theorem setTimer_rxState (T : TimerId) (tm : Timer) : (setTimer T tm s).rxState = s.rxState := rfl
@[simp] theorem setTimer_rxKind (T : TimerId) (tm : Timer) : (setTimer T tm s).rxKind = s.rxKind := rfl
@[simp] theorem setTimer_rxSeq (T : TimerId) (tm : Timer) : (setTimer T tm s).rxSeq = s.rxSeq := rfl
@[simp] theorem setTimer_rxLc (T : TimerId) (tm : Timer) : (setTimer T tm s).rxLc = s.rxLc := rfl
@[simp] theorem setTimer_rxLen (T : TimerId) (tm : Timer) : (setTimer T tm s).rxLen = s.rxLen := rfl
@[simp] theorem setTimer_rxCount (T : TimerId) (tm : Timer) : (setTimer T tm s).rxCount = s.rxCount := rfl
@[simp] theorem setTimer_rxCrc (T : TimerId) (tm : Timer) : (setTimer T tm s).rxCrc = s.rxCrc := rfl
@[simp] theorem setTimer_rxCrcHi (T : TimerId) (tm : Timer) : (setTimer T tm s).rxCrcHi = s.rxCrcHi := rfl
@[simp] theorem setTimer_rxBuf (T : TimerId) (tm : Timer) : (setTimer T tm s).rxBuf = s.rxBuf := rfl
@[simp] theorem setTimer_rxBufFill (T : TimerId) (tm : Timer) : (setTimer T tm s).rxBufFill = s.rxBufFill := rfl
@[simp] theorem setTimer_txValid (T : TimerId) (tm : Timer) : (setTimer T tm s).txValid = s.txValid := rfl
@[simp] theorem setTimer_txSeq (T : TimerId) (tm : Timer) : (setTimer T tm s).txSeq = s.txSeq := rfl
@[simp] theorem setTimer_txPayload (T : TimerId) (tm : Timer) : (setTimer T tm s).txPayload = s.txPayload := rfl
@[simp] theorem setTimer_txFrame (T : TimerId) (tm : Timer) : (setTimer T tm s).txFrame = s.txFrame := rfl
@[simp] theorem setTimer_txSequence (T : TimerId) (tm : Timer) : (setTimer T tm s).txSequence = s.txSequence := rfl
@[simp] theorem setTimer_awaitingAck (T : TimerId) (tm : Timer) : (setTimer T tm s).awaitingAck = s.awaitingAck := rfl
@[simp] theorem setTimer_retryCount (T : TimerId) (tm : Timer) : (setTimer T tm s).retryCount = s.retryCount := rfl
@[simp] theorem setTimer_tmrRx (T : TimerId) (tm : Timer) : (setTimer T tm s).tmrRx = if T = .rx then tm else s.tmrRx := rfl
@[simp] theorem setTimer_tmrAck (T : TimerId) (tm : Timer) : (setTimer T tm s).tmrAck = if T = .ack then tm else s.tmrAck := rfl
@[simp] theorem setTimer_ctx (T : TimerId) (tm : Timer) : (setTimer T tm s).ctx = s.ctx := rfl
@[simp] theorem setTimer_rxUserAcked (T : TimerId) (tm : Timer) : (setTimer T tm s).rxUserAcked = s.rxUserAcked := rfl
@[simp] theorem setTimer_fault (T : TimerId) (tm : Timer) : (setTimer T tm s).fault = s.fault := rfl
@[simp] theorem setTimer_prim (T : TimerId) (tm : Timer) : (setTimer T tm s).prim = s.prim := rfl
@[simp] theorem setTimer_trace (T : TimerId) (tm : Timer) : (setTimer T tm s).trace = s.trace := rfl
@[simp] theorem setTimer_result (T : TimerId) (tm : Timer) : (setTimer T tm s).result = s.result := rfl
@[simp] theorem setTimer_pending (T : TimerId) (tm : Timer) : (setTimer T tm s).pending = s.pending := rfl
@[simp] theorem setTimer_draws (T : TimerId) (tm : Timer) : (setTimer T tm s).draws = s.draws := rfl

/-! ### `accrue` -/

@[simp] theorem accrue_cfg (t : Nat) : (accrue t s).cfg = s.cfg := rfl
@[simp] theorem accrue_crcUpdate (t : Nat) : (accrue t s).crcUpdate = s.crcUpdate := rfl
@[simp] theorem accrue_inited (t : Nat) : (accrue t s).inited = s.inited := rfl
@[simp] theorem accrue_rxState (t : Nat) : (accrue t s).rxState = s.rxState := rfl
@[simp] theorem accrue_rxKind (t : Nat) : (accrue t s).rxKind = s.rxKind := rfl
@[simp] theorem accrue_rxSeq (t : Nat) : (accrue t s).rxSeq = s.rxSeq := rfl
@[simp] theorem accrue_rxLc (t : Nat) : (accrue t s).rxLc = s.rxLc := rfl
@[simp] theorem accrue_rxLen (t : Nat) : (accrue t s).rxLen = s.rxLen := rfl
@[simp] theorem accrue_rxCount (t : Nat) : (accrue t s).rxCount = s.rxCount := rfl
@[simp] theorem accrue_rxCrc (t : Nat) : (accrue t s).rxCrc = s.rxCrc := rfl
@[simp] theorem accrue_rxCrcHi (t : Nat) : (accrue t s).rxCrcHi = s.rxCrcHi := rfl
@[simp] theorem accrue_rxBuf (t : Nat) : (accrue t s).rxBuf = s.rxBuf := rfl
@[simp] theorem accrue_rxBufFill (t : Nat) : (accrue t s).rxBufFill = s.rxBufFill := rfl
@[simp] theorem accrue_txValid (t : Nat) : (accrue t s).txValid = s.txValid := rfl
@[simp] theorem accrue_txSeq (t : Nat) : (accrue t s).txSeq = s.txSeq := rfl
@[simp] theorem accrue_txPayload (t : Nat) : (accrue t s).txPayload = s.txPayload := rfl
@[simp] theorem accrue_txFrame (t : Nat) : (accrue t s).txFrame = s.txFrame := rfl
@[simp] theorem accrue_txSequence (t : Nat) : (accrue t s).txSequence = s.txSequence := rfl
@[simp] theorem accrue_awaitingAck (t : Nat) : (accrue t s).awaitingAck = s.awaitingAck := rfl
@[simp] theorem accrue_retryCount (t : Nat) : (accrue t s).retryCount = s.retryCount := rfl
@[simp] theorem accrue_tmrRx (t : Nat) : (accrue t s).tmrRx = s.tmrRx.accrue t := rfl
@[simp] theorem accrue_tmrAck (t : Nat) : (accrue t s).tmrAck = s.tmrAck.accrue t := rfl
@[simp] theorem accrue_ctx (t : Nat) : (accrue t s).ctx = s.ctx := rfl
@[simp] theorem accrue_rxUserAcked (t : Nat) : (accrue t s).rxUserAcked = s.rxUserAcked := rfl
@[simp] theorem accrue_fault (t : Nat) : (accrue t s).fault = s.fault := rfl
@[simp] theorem accrue_prim (t : Nat) : (accrue t s).prim = s.prim := rfl
@[simp] theorem accrue_trace (t : Nat) : (accrue t s).trace = s.trace := rfl
@[simp] theorem accrue_result (t : Nat) : (accrue t s).result = s.result := rfl
@[simp] theorem accrue_pending (t : Nat) : (accrue t s).pending = s.pending := rfl
@[simp] theorem accrue_draws (t : Nat) : (accrue t s).draws = s.draws := rfl

/-! ### `reschedule` -/

@[simp] theorem reschedule_cfg (t : Nat) : (reschedule t s).cfg = s.cfg := rfl
@[simp] theorem reschedule_crcUpdate (t : Nat) : (reschedule t s).crcUpdate = s.crcUpdate := rfl
@[simp] theorem reschedule_inited (t : Nat) : (reschedule t s).inited = s.inited := rfl
@[simp] theorem reschedule_rxState (t : Nat) : (reschedule t s).rxState = s.rxState := rfl
@[simp] theorem reschedule_rxKind (t : Nat) : (reschedule t s).rxKind = s.rxKind := rfl
@[simp] theorem reschedule_rxSeq (t : Nat) : (reschedule t s).rxSeq = s.rxSeq := rfl
@[simp] theorem reschedule_rxLc (t : Nat) : (reschedule t s).rxLc = s.rxLc := rfl
@[simp] theorem reschedule_rxLen (t : Nat) : (reschedule t s).rxLen = s.rxLen := rfl
@[simp] theorem reschedule_rxCount (t : Nat) : (reschedule t s).rxCount = s.rxCount := rfl
@[simp] theorem reschedule_rxCrc (t : Nat) : (reschedule t s).rxCrc = s.rxCrc := rfl
@[simp] theorem reschedule_rxCrcHi (t : Nat) : (reschedule t s).rxCrcHi = s.rxCrcHi := rfl
@[simp] theorem reschedule_rxBuf (t : Nat) : (reschedule t s).rxBuf = s.rxBuf := rfl
@[simp] theorem reschedule_rxBufFill (t : Nat) : (reschedule t s).rxBufFill = s.rxBufFill := rfl
@[simp] theorem reschedule_txValid (t : Nat) : (reschedule t s).txValid = s.txValid := rfl
@[simp] theorem reschedule_txSeq (t : Nat) : (reschedule t s).txSeq = s.txSeq := rfl
@[simp] theorem reschedule_txPayload (t : Nat) : (reschedule t s).txPayload = s.txPayload := rfl
@[simp] theorem reschedule_txFrame (t : Nat) : (reschedule t s).txFrame = s.txFrame := rfl
@[simp] theorem reschedule_txSequence (t : Nat) : (reschedule t s).txSequence = s.txSequence := rfl
@[simp] theorem reschedule_awaitingAck (t : Nat) : (reschedule t s).awaitingAck = s.awaitingAck := rfl
@[simp] theorem reschedule_retryCount (t : Nat) : (reschedule t s).retryCount = s.retryCount := rfl
@[simp] theorem reschedule_tmrRx (t : Nat) : (reschedule t s).tmrRx = s.tmrRx := rfl
@[simp] theorem reschedule_tmrAck (t : Nat) : (reschedule t s).tmrAck = s.tmrAck := rfl
@[simp] theorem reschedule_ctx (t : Nat) : (reschedule t s).ctx = s.ctx := rfl
@[simp] theorem reschedule_rxUserAcked (t : Nat) : (reschedule t s).rxUserAcked = s.rxUserAcked := rfl
@[simp] theorem reschedule_fault (t : Nat) : (reschedule t s).fault = s.fault := rfl
@[simp] theorem reschedule_prim (t : Nat) : (reschedule t s).prim = deadlinePrim t (soonest s) := rfl
@[simp] theorem reschedule_trace (t : Nat) : (reschedule t s).trace = s.trace ++ [deadlineEvent (soonest s)] := rfl
@[simp] theorem reschedule_result (t : Nat) : (reschedule t s).result = s.result := rfl
@[simp] theorem reschedule_pending (t : Nat) : (reschedule t s).pending = s.pending := rfl
@[simp] theorem reschedule_draws (t : Nat) : (reschedule t s).draws = s.draws := rfl

/-! ### `muxSet` -/

@[simp] theorem muxSet_cfg (T : TimerId) (d t : Nat) : (muxSet T d t s).cfg = s.cfg := by simp [muxSet]
@[simp] theorem muxSet_crcUpdate (T : TimerId) (d t : Nat) : (muxSet T d t s).crcUpdate = s.crcUpdate := by simp [muxSet]
@[simp] theorem muxSet_inited (T : TimerId) (d t : Nat) : (muxSet T d t s).inited = s.inited := by simp [muxSet]
@[simp] theorem muxSet_rxState (T : TimerId) (d t : Nat) : (muxSet T d t s).rxState = s.rxState := by simp [muxSet]
@[simp] theorem muxSet_rxKind (T : TimerId) (d t : Nat) : (muxSet T d t s).rxKind = s.rxKind := by simp [muxSet]
@[simp] theorem muxSet_rxSeq (T : TimerId) (d t : Nat) : (muxSet T d t s).rxSeq = s.rxSeq := by simp [muxSet]
@[simp] theorem muxSet_rxLc (T : TimerId) (d t : Nat) : (muxSet T d t s).rxLc = s.rxLc := by simp [muxSet]
@[simp] theorem muxSet_rxLen (T : TimerId) (d t : Nat) : (muxSet T d t s).rxLen = s.rxLen := by simp [muxSet]
@[simp] theorem muxSet_rxCount (T : TimerId) (d t : Nat) : (muxSet T d t s).rxCount = s.rxCount := by simp [muxSet]
@[simp] theorem muxSet_rxCrc (T : TimerId) (d t : Nat) : (muxSet T d t s).rxCrc = s.rxCrc := by simp [muxSet]
@[simp] theorem muxSet_rxCrcHi (T : TimerId) (d t : Nat) : (muxSet T d t s).rxCrcHi = s.rxCrcHi := by simp [muxSet]
@[simp] theorem muxSet_rxBuf (T : TimerId) (d t : Nat) : (muxSet T d t s).rxBuf = s.rxBuf := by simp [muxSet]
@[simp] theorem muxSet_rxBufFill (T : TimerId) (d t : Nat) : (muxSet T d t s).rxBufFill = s.rxBufFill := by simp [muxSet]
@[simp] theorem muxSet_txValid (T : TimerId) (d t : Nat) : (muxSet T d t s).txValid = s.txValid := by simp [muxSet]
@[simp] theorem muxSet_txSeq (T : TimerId) (d t : Nat) : (muxSet T d t s).txSeq = s.txSeq := by simp [muxSet]
@[simp] theorem muxSet_txPayload (T : TimerId) (d t : Nat) : (muxSet T d t s).txPayload = s.txPayload := by simp [muxSet]
@[simp] theorem muxSet_txFrame (T : TimerId) (d t : Nat) : (muxSet T d t s).txFrame = s.txFrame := by simp [muxSet]
@[simp] theorem muxSet_txSequence (T : TimerId) (d t : Nat) : (muxSet T d t s).txSequence = s.txSequence := by simp [muxSet]
@[simp] theorem muxSet_awaitingAck (T : TimerId) (d t : Nat) : (muxSet T d t s).awaitingAck = s.awaitingAck := by simp [muxSet]
@[simp] theorem muxSet_retryCount (T : TimerId) (d t : Nat) : (muxSet T d t s).retryCount = s.retryCount := by simp [muxSet]
@[simp] theorem muxSet_ctx (T : TimerId) (d t : Nat) : (muxSet T d t s).ctx = s.ctx := by simp [muxSet]
@[simp] theorem muxSet_rxUserAcked (T : TimerId) (d t : Nat) : (muxSet T d t s).rxUserAcked = s.rxUserAcked := by simp [muxSet]
@[simp] theorem muxSet_fault (T : TimerId) (d t : Nat) : (muxSet T d t s).fault = s.fault := by simp [muxSet]
@[simp] theorem muxSet_result (T : TimerId) (d t : Nat) : (muxSet T d t s).result = s.result := by simp [muxSet]
@[simp] theorem muxSet_pending (T : TimerId) (d t : Nat) : (muxSet T d t s).pending = s.pending := by simp [muxSet]
@[simp] theorem muxSet_draws (T : TimerId) (d t : Nat) : (muxSet T d t s).draws = s.draws := by simp [muxSet]

/-! ### `muxCancel` -/

@[simp] theorem muxCancel_cfg (T : TimerId) (t : Nat) : (muxCancel T t s).cfg = s.cfg := by simp [muxCancel]
@[simp] theorem muxCancel_crcUpdate (T : TimerId) (t : Nat) : (muxCancel T t s).crcUpdate = s.crcUpdate := by simp [muxCancel]
@[simp] theorem muxCancel_inited (T : TimerId) (t : Nat) : (muxCancel T t s).inited = s.inited := by simp [muxCancel]
@[simp] theorem muxCancel_rxState (T : TimerId) (t : Nat) : (muxCancel T t s).rxState = s.rxState := by simp [muxCancel]
@[simp] theorem muxCancel_rxKind (T : TimerId) (t : Nat) : (muxCancel T t s).rxKind = s.rxKind := by simp [muxCancel]
@[simp] theorem muxCancel_rxSeq (T : TimerId) (t : Nat) : (muxCancel T t s).rxSeq = s.rxSeq := by simp [muxCancel]
@[simp] theorem muxCancel_rxLc (T : TimerId) (t : Nat) : (muxCancel T t s).rxLc = s.rxLc := by simp [muxCancel]
@[simp] theorem muxCancel_rxLen (T : TimerId) (t : Nat) : (muxCancel T t s).rxLen = s.rxLen := by simp [muxCancel]
@[simp] theorem muxCancel_rxCount (T : TimerId) (t : Nat) : (muxCancel T t s).rxCount = s.rxCount := by simp [muxCancel]
@[simp] theorem muxCancel_rxCrc (T : TimerId) (t : Nat) : (muxCancel T t s).rxCrc = s.rxCrc := by simp [muxCancel]
@[simp] theorem muxCancel_rxCrcHi (T : TimerId) (t : Nat) : (muxCancel T t s).rxCrcHi = s.rxCrcHi := by simp [muxCancel]
@[simp] theorem muxCancel_rxBuf (T : TimerId) (t : Nat) : (muxCancel T t s).rxBuf = s.rxBuf := by simp [muxCancel]
@[simp] theorem muxCancel_rxBufFill (T : TimerId) (t : Nat) : (muxCancel T t s).rxBufFill = s.rxBufFill := by simp [muxCancel]
@[simp] theorem muxCancel_txValid (T : TimerId) (t : Nat) : (muxCancel T t s).txValid = s.txValid := by simp [muxCancel]
@[simp] theorem muxCancel_txSeq (T : TimerId) (t : Nat) : (muxCancel T t s).txSeq = s.txSeq := by simp [muxCancel]
@[simp] theorem muxCancel_txPayload (T : TimerId) (t : Nat) : (muxCancel T t s).txPayload = s.txPayload := by simp [muxCancel]
@[simp] theorem muxCancel_txFrame (T : TimerId) (t : Nat) : (muxCancel T t s).txFrame = s.txFrame := by simp [muxCancel]
@[simp] theorem muxCancel_txSequence (T : TimerId) (t : Nat) : (muxCancel T t s).txSequence = s.txSequence := by simp [muxCancel]
@[simp] theorem muxCancel_awaitingAck (T : TimerId) (t : Nat) : (muxCancel T t s).awaitingAck = s.awaitingAck := by simp [muxCancel]
@[simp] theorem muxCancel_retryCount (T : TimerId) (t : Nat) : (muxCancel T t s).retryCount = s.retryCount := by simp [muxCancel]
@[simp] theorem muxCancel_ctx (T : TimerId) (t : Nat) : (muxCancel T t s).ctx = s.ctx := by simp [muxCancel]
@[simp] theorem muxCancel_rxUserAcked (T : TimerId) (t : Nat) : (muxCancel T t s).rxUserAcked = s.rxUserAcked := by simp [muxCancel]
@[simp] theorem muxCancel_fault (T : TimerId) (t : Nat) : (muxCancel T t s).fault = s.fault := by simp [muxCancel]
@[simp] theorem muxCancel_result (T : TimerId) (t : Nat) : (muxCancel T t s).result = s.result := by simp [muxCancel]
@[simp] theorem muxCancel_pending (T : TimerId) (t : Nat) : (muxCancel T t s).pending = s.pending := by simp [muxCancel]
@[simp] theorem muxCancel_draws (T : TimerId) (t : Nat) : (muxCancel T t s).draws = s.draws := by simp [muxCancel]

/-! ### `settle` -/

@[simp] theorem settle_cfg : (settle s).cfg = s.cfg := rfl
@[simp] theorem settle_crcUpdate : (settle s).crcUpdate = s.crcUpdate := rfl
@[simp] theorem settle_inited : (settle s).inited = s.inited := rfl
@[simp] theorem settle_rxState : (settle s).rxState = s.rxState := rfl
@[simp] theorem settle_rxKind : (settle s).rxKind = s.rxKind := rfl
@[simp] theorem settle_rxSeq : (settle s).rxSeq = s.rxSeq := rfl
@[simp] theorem settle_rxLc : (settle s).rxLc = s.rxLc := rfl
@[simp] theorem settle_rxLen : (settle s).rxLen = s.rxLen := rfl
@[simp] theorem settle_rxCount : (settle s).rxCount = s.rxCount := rfl
@[simp] theorem settle_rxCrc : (settle s).rxCrc = s.rxCrc := rfl
@[simp] theorem settle_rxCrcHi : (settle s).rxCrcHi = s.rxCrcHi := rfl
@[simp] theorem settle_rxBuf : (settle s).rxBuf = s.rxBuf := rfl
@[simp] theorem settle_rxBufFill : (settle s).rxBufFill = s.rxBufFill := rfl
@[simp] theorem settle_txValid : (settle s).txValid = s.txValid := rfl
@[simp] theorem settle_txSeq : (settle s).txSeq = s.txSeq := rfl
@[simp] theorem settle_txPayload : (settle s).txPayload = s.txPayload := rfl
@[simp] theorem settle_txFrame : (settle s).txFrame = s.txFrame := rfl
@[simp] theorem settle_txSequence : (settle s).txSequence = nextSeq s.txSequence := rfl
@[simp] theorem settle_awaitingAck : (settle s).awaitingAck = false := rfl
@[simp] theorem settle_retryCount : (settle s).retryCount = s.retryCount := rfl
@[simp] theorem settle_tmrRx : (settle s).tmrRx = s.tmrRx := rfl
@[simp] theorem settle_tmrAck : (settle s).tmrAck = s.tmrAck := rfl
@[simp] theorem settle_ctx : (settle s).ctx = s.ctx := rfl
@[simp] theorem settle_rxUserAcked : (settle s).rxUserAcked = s.rxUserAcked := rfl
@[simp] theorem settle_fault : (settle s).fault = s.fault := rfl
@[simp] theorem settle_prim : (settle s).prim = s.prim := rfl
@[simp] theorem settle_trace : (settle s).trace = s.trace := rfl
@[simp] theorem settle_result : (settle s).result = s.result := rfl
@[simp] theorem settle_pending : (settle s).pending = s.pending := rfl
@[simp] theorem settle_draws : (settle s).draws = s.draws := rfl

/-! ### `abandon` -/

@[simp] theorem abandon_cfg : (abandon s).cfg = s.cfg := by simp [abandon]
@[simp] theorem abandon_crcUpdate : (abandon s).crcUpdate = s.crcUpdate := by simp [abandon]
@[simp] theorem abandon_inited : (abandon s).inited = s.inited := by simp [abandon]
@[simp] theorem abandon_rxState : (abandon s).rxState = s.rxState := by simp [abandon]
@[simp] theorem abandon_rxKind : (abandon s).rxKind = s.rxKind := by simp [abandon]
@[simp] theorem abandon_rxSeq : (abandon s).rxSeq = s.rxSeq := by simp [abandon]
@[simp] theorem abandon_rxLc : (abandon s).rxLc = s.rxLc := by simp [abandon]
@[simp] theorem abandon_rxLen : (abandon s).rxLen = s.rxLen := by simp [abandon]
@[simp] theorem abandon_rxCount : (abandon s).rxCount = s.rxCount := by simp [abandon]
@[simp] theorem abandon_rxCrc : (abandon s).rxCrc = s.rxCrc := by simp [abandon]
@[simp] theorem abandon_rxCrcHi : (abandon s).rxCrcHi = s.rxCrcHi := by simp [abandon]
@[simp] theorem abandon_rxBuf : (abandon s).rxBuf = s.rxBuf := by simp [abandon]
@[simp] theorem abandon_rxBufFill : (abandon s).rxBufFill = s.rxBufFill := by simp [abandon]
@[simp] theorem abandon_txValid : (abandon s).txValid = s.txValid := by simp [abandon]
@[simp] theorem abandon_txSeq : (abandon s).txSeq = s.txSeq := by simp [abandon]
@[simp] theorem abandon_txPayload : (abandon s).txPayload = s.txPayload := by simp [abandon]
@[simp] theorem abandon_txFrame : (abandon s).txFrame = s.txFrame := by simp [abandon]
@[simp] theorem abandon_txSequence : (abandon s).txSequence = nextSeq s.txSequence := by simp [abandon]
@[simp] theorem abandon_awaitingAck : (abandon s).awaitingAck = false := by simp [abandon]
@[simp] theorem abandon_retryCount : (abandon s).retryCount = s.retryCount := by simp [abandon]
@[simp] theorem abandon_tmrRx : (abandon s).tmrRx = s.tmrRx := by simp [abandon]
@[simp] theorem abandon_tmrAck : (abandon s).tmrAck = s.tmrAck := by simp [abandon]
@[simp] theorem abandon_ctx : (abandon s).ctx = s.ctx := by simp [abandon]
@[simp] theorem abandon_rxUserAcked : (abandon s).rxUserAcked = s.rxUserAcked := by simp [abandon]
@[simp] theorem abandon_fault : (abandon s).fault = s.fault := by simp [abandon]
@[simp] theorem abandon_prim : (abandon s).prim = s.prim := by simp [abandon]
@[simp] theorem abandon_trace : (abandon s).trace = s.trace ++ [.timeout s.txSeq s.txPayload] := by simp [abandon]
@[simp] theorem abandon_result : (abandon s).result = s.result := by simp [abandon]
@[simp] theorem abandon_pending : (abandon s).pending = s.pending := by simp [abandon]
@[simp] theorem abandon_draws : (abandon s).draws = s.draws := by simp [abandon]

/-! ### `retransmit` -/

@[simp] theorem retransmit_cfg (t : Nat) : (retransmit t s).cfg = s.cfg := by simp [retransmit]
@[simp] theorem retransmit_crcUpdate (t : Nat) : (retransmit t s).crcUpdate = s.crcUpdate := by simp [retransmit]
@[simp] theorem retransmit_inited (t : Nat) : (retransmit t s).inited = s.inited := by simp [retransmit]
@[simp] theorem retransmit_rxState (t : Nat) : (retransmit t s).rxState = s.rxState := by simp [retransmit]
@[simp] theorem retransmit_rxKind (t : Nat) : (retransmit t s).rxKind = s.rxKind := by simp [retransmit]
@[simp] theorem retransmit_rxSeq (t : Nat) : (retransmit t s).rxSeq = s.rxSeq := by simp [retransmit]
@[simp] theorem retransmit_rxLc (t : Nat) : (retransmit t s).rxLc = s.rxLc := by simp [retransmit]
@[simp] theorem retransmit_rxLen (t : Nat) : (retransmit t s).rxLen = s.rxLen := by simp [retransmit]
@[simp] theorem retransmit_rxCount (t : Nat) : (retransmit t s).rxCount = s.rxCount := by simp [retransmit]
@[simp] theorem retransmit_rxCrc (t : Nat) : (retransmit t s).rxCrc = s.rxCrc := by simp [retransmit]
@[simp] theorem retransmit_rxCrcHi (t : Nat) : (retransmit t s).rxCrcHi = s.rxCrcHi := by simp [retransmit]
@[simp] theorem retransmit_rxBuf (t : Nat) : (retransmit t s).rxBuf = s.rxBuf := by simp [retransmit]
@[simp] theorem retransmit_rxBufFill (t : Nat) : (retransmit t s).rxBufFill = s.rxBufFill := by simp [retransmit]
@[simp] theorem retransmit_txValid (t : Nat) : (retransmit t s).txValid = s.txValid := by simp [retransmit]
@[simp] theorem retransmit_txSeq (t : Nat) : (retransmit t s).txSeq = s.txSeq := by simp [retransmit]
@[simp] theorem retransmit_txPayload (t : Nat) : (retransmit t s).txPayload = s.txPayload := by simp [retransmit]
@[simp] theorem retransmit_txFrame (t : Nat) : (retransmit t s).txFrame = s.txFrame := by simp [retransmit]
@[simp] theorem retransmit_txSequence (t : Nat) : (retransmit t s).txSequence = s.txSequence := by simp [retransmit]
@[simp] theorem retransmit_awaitingAck (t : Nat) : (retransmit t s).awaitingAck = s.awaitingAck := by simp [retransmit]
@[simp] theorem retransmit_retryCount (t : Nat) : (retransmit t s).retryCount = s.retryCount := by simp [retransmit]
@[simp] theorem retransmit_ctx (t : Nat) : (retransmit t s).ctx = s.ctx := by simp [retransmit]
@[simp] theorem retransmit_rxUserAcked (t : Nat) : (retransmit t s).rxUserAcked = s.rxUserAcked := by simp [retransmit]
@[simp] theorem retransmit_fault (t : Nat) : (retransmit t s).fault = s.fault := by simp [retransmit]
@[simp] theorem retransmit_result (t : Nat) : (retransmit t s).result = s.result := by simp [retransmit]
@[simp] theorem retransmit_pending (t : Nat) : (retransmit t s).pending = s.pending := by simp [retransmit]
@[simp] theorem retransmit_draws (t : Nat) : (retransmit t s).draws = s.draws := by simp [retransmit]

/-! ### `storeTx` -/

@[simp] theorem storeTx_cfg (p : List Byte) : (storeTx p s).cfg = s.cfg := rfl
@[simp] theorem storeTx_crcUpdate (p : List Byte) : (storeTx p s).crcUpdate = s.crcUpdate := rfl
@[simp] theorem storeTx_inited (p : List Byte) : (storeTx p s).inited = s.inited := rfl
@[simp] theorem storeTx_rxState (p : List Byte) : (storeTx p s).rxState = s.rxState := rfl
@[simp] theorem storeTx_rxKind (p : List Byte) : (storeTx p s).rxKind = s.rxKind := rfl
@[simp] theorem storeTx_rxSeq (p : List Byte) : (storeTx p s).rxSeq = s.rxSeq := rfl
@[simp] theorem storeTx_rxLc (p : List Byte) : (storeTx p s).rxLc = s.rxLc := rfl
@[simp] theorem storeTx_rxLen (p : List Byte) : (storeTx p s).rxLen = s.rxLen := rfl
@[simp] theorem storeTx_rxCount (p : List Byte) : (storeTx p s).rxCount = s.rxCount := rfl
@[simp] theorem storeTx_rxCrc (p : List Byte) : (storeTx p s).rxCrc = s.rxCrc := rfl
@[simp] theorem storeTx_rxCrcHi (p : List Byte) : (storeTx p s).rxCrcHi = s.rxCrcHi := rfl
@[simp] theorem storeTx_rxBuf (p : List Byte) : (storeTx p s).rxBuf = s.rxBuf := rfl
@[simp] theorem storeTx_rxBufFill (p : List Byte) : (storeTx p s).rxBufFill = s.rxBufFill := rfl
@[simp] theorem storeTx_txValid (p : List Byte) : (storeTx p s).txValid = true := rfl
@[simp] theorem storeTx_txSeq (p : List Byte) : (storeTx p s).txSeq = s.txSequence := rfl
@[simp] theorem storeTx_txPayload (p : List Byte) : (storeTx p s).txPayload = p := rfl
@[simp] theorem storeTx_txFrame (p : List Byte) : (storeTx p s).txFrame = encodeFrame s.crcUpdate .sync s.txSequence p := rfl
@[simp] theorem storeTx_txSequence (p : List Byte) : (storeTx p s).txSequence = s.txSequence := rfl
@[simp] theorem storeTx_awaitingAck (p : List Byte) : (storeTx p s).awaitingAck = true := rfl
@[simp] theorem storeTx_retryCount (p : List Byte) : (storeTx p s).retryCount = 0 := rfl
@[simp] theorem storeTx_tmrRx (p : List Byte) : (storeTx p s).tmrRx = s.tmrRx := rfl
@[simp] theorem storeTx_tmrAck (p : List Byte) : (storeTx p s).tmrAck = s.tmrAck := rfl
@[simp] theorem storeTx_ctx (p : List Byte) : (storeTx p s).ctx = s.ctx := rfl
@[simp] theorem storeTx_rxUserAcked (p : List Byte) : (storeTx p s).rxUserAcked = s.rxUserAcked := rfl
@[simp] theorem storeTx_fault (p : List Byte) : (storeTx p s).fault = s.fault := rfl
@[simp] theorem storeTx_prim (p : List Byte) : (storeTx p s).prim = s.prim := rfl
@[simp] theorem storeTx_trace (p : List Byte) : (storeTx p s).trace = s.trace := rfl
@[simp] theorem storeTx_result (p : List Byte) : (storeTx p s).result = s.result := rfl
@[simp] theorem storeTx_pending (p : List Byte) : (storeTx p s).pending = s.pending := rfl
@[simp] theorem storeTx_draws (p : List Byte) : (storeTx p s).draws = s.draws := rfl

/-! ### `sendSync` -/

@[simp] theorem sendSync_cfg (p : List Byte) (t : Nat) : (sendSync p t s).cfg = s.cfg := by simp [sendSync]
@[simp] theorem sendSync_crcUpdate (p : List Byte) (t : Nat) : (sendSync p t s).crcUpdate = s.crcUpdate := by simp [sendSync]
@[simp] theorem sendSync_inited (p : List Byte) (t : Nat) : (sendSync p t s).inited = s.inited := by simp [sendSync]
@[simp] theorem sendSync_rxState (p : List Byte) (t : Nat) : (sendSync p t s).rxState = s.rxState := by simp [sendSync]
@[simp] theorem sendSync_rxKind (p : List Byte) (t : Nat) : (sendSync p t s).rxKind = s.rxKind := by simp [sendSync]
@[simp] theorem sendSync_rxSeq (p : List Byte) (t : Nat) : (sendSync p t s).rxSeq = s.rxSeq := by simp [sendSync]
@[simp] theorem sendSync_rxLc (p : List Byte) (t : Nat) : (sendSync p t s).rxLc = s.rxLc := by simp [sendSync]
@[simp] theorem sendSync_rxLen (p : List Byte) (t : Nat) : (sendSync p t s).rxLen = s.rxLen := by simp [sendSync]
@[simp] theorem sendSync_rxCount (p : List Byte) (t : Nat) : (sendSync p t s).rxCount = s.rxCount := by simp [sendSync]
@[simp] theorem sendSync_rxCrc (p : List Byte) (t : Nat) : (sendSync p t s).rxCrc = s.rxCrc := by simp [sendSync]
@[simp] theorem sendSync_rxCrcHi (p : List Byte) (t : Nat) : (sendSync p t s).rxCrcHi = s.rxCrcHi := by simp [sendSync]
@[simp] theorem sendSync_rxBuf (p : List Byte) (t : Nat) : (sendSync p t s).rxBuf = s.rxBuf := by simp [sendSync]
@[simp] theorem sendSync_rxBufFill (p : List Byte) (t : Nat) : (sendSync p t s).rxBufFill = s.rxBufFill := by simp [sendSync]
@[simp] theorem sendSync_txValid (p : List Byte) (t : Nat) : (sendSync p t s).txValid = true := by simp [sendSync]
@[simp] theorem sendSync_txSeq (p : List Byte) (t : Nat) : (sendSync p t s).txSeq = s.txSequence := by simp [sendSync]
@[simp] theorem sendSync_txPayload (p : List Byte) (t : Nat) : (sendSync p t s).txPayload = p := by simp [sendSync]
@[simp] theorem sendSync_txFrame (p : List Byte) (t : Nat) : (sendSync p t s).txFrame = encodeFrame s.crcUpdate .sync s.txSequence p := by simp [sendSync]
@[simp] theorem sendSync_txSequence (p : List Byte) (t : Nat) : (sendSync p t s).txSequence = s.txSequence := by simp [sendSync]
@[simp] theorem sendSync_awaitingAck (p : List Byte) (t : Nat) : (sendSync p t s).awaitingAck = true := by simp [sendSync]
@[simp] theorem sendSync_retryCount (p : List Byte) (t : Nat) : (sendSync p t s).retryCount = 0 := by simp [sendSync]
@[simp] theorem sendSync_ctx (p : List Byte) (t : Nat) : (sendSync p t s).ctx = s.ctx := by simp [sendSync]
@[simp] theorem sendSync_rxUserAcked (p : List Byte) (t : Nat) : (sendSync p t s).rxUserAcked = s.rxUserAcked := by simp [sendSync]
@[simp] theorem sendSync_fault (p : List Byte) (t : Nat) : (sendSync p t s).fault = s.fault := by simp [sendSync]
@[simp] theorem sendSync_result (p : List Byte) (t : Nat) : (sendSync p t s).result = s.result := by simp [sendSync]
@[simp] theorem sendSync_pending (p : List Byte) (t : Nat) : (sendSync p t s).pending = s.pending := by simp [sendSync]
@[simp] theorem sendSync_draws (p : List Byte) (t : Nat) : (sendSync p t s).draws = s.draws := by simp [sendSync]

/-! ### `sendUnsync` -/

@[simp] theorem sendUnsync_cfg (p : List Byte) : (sendUnsync p s).cfg = s.cfg := by simp [sendUnsync]
@[simp] theorem sendUnsync_crcUpdate (p : List Byte) : (sendUnsync p s).crcUpdate = s.crcUpdate := by simp [sendUnsync]
@[simp] theorem sendUnsync_inited (p : List Byte) : (sendUnsync p s).inited = s.inited := by simp [sendUnsync]
@[simp] theorem sendUnsync_rxState (p : List Byte) : (sendUnsync p s).rxState = s.rxState := by simp [sendUnsync]
@[simp] theorem sendUnsync_rxKind (p : List Byte) : (sendUnsync p s).rxKind = s.rxKind := by simp [sendUnsync]
@[simp] theorem sendUnsync_rxSeq (p : List Byte) : (sendUnsync p s).rxSeq = s.rxSeq := by simp [sendUnsync]
@[simp] theorem sendUnsync_rxLc (p : List Byte) : (sendUnsync p s).rxLc = s.rxLc := by simp [sendUnsync]
@[simp] theorem sendUnsync_rxLen (p : List Byte) : (sendUnsync p s).rxLen = s.rxLen := by simp [sendUnsync]
@[simp] theorem sendUnsync_rxCount (p : List Byte) : (sendUnsync p s).rxCount = s.rxCount := by simp [sendUnsync]
@[simp] theorem sendUnsync_rxCrc (p : List Byte) : (sendUnsync p s).rxCrc = s.rxCrc := by simp [sendUnsync]
@[simp] theorem sendUnsync_rxCrcHi (p : List Byte) : (sendUnsync p s).rxCrcHi = s.rxCrcHi := by simp [sendUnsync]
@[simp] theorem sendUnsync_rxBuf (p : List Byte) : (sendUnsync p s).rxBuf = s.rxBuf := by simp [sendUnsync]
@[simp] theorem sendUnsync_rxBufFill (p : List Byte) : (sendUnsync p s).rxBufFill = s.rxBufFill := by simp [sendUnsync]
@[simp] theorem sendUnsync_txValid (p : List Byte) : (sendUnsync p s).txValid = s.txValid := by simp [sendUnsync]
@[simp] theorem sendUnsync_txSeq (p : List Byte) : (sendUnsync p s).txSeq = s.txSeq := by simp [sendUnsync]
@[simp] theorem sendUnsync_txPayload (p : List Byte) : (sendUnsync p s).txPayload = s.txPayload := by simp [sendUnsync]
@[simp] theorem sendUnsync_txFrame (p : List Byte) : (sendUnsync p s).txFrame = s.txFrame := by simp [sendUnsync]
@[simp] theorem sendUnsync_txSequence (p : List Byte) : (sendUnsync p s).txSequence = s.txSequence := by simp [sendUnsync]
@[simp] theorem sendUnsync_awaitingAck (p : List Byte) : (sendUnsync p s).awaitingAck = s.awaitingAck := by simp [sendUnsync]
@[simp] theorem sendUnsync_retryCount (p : List Byte) : (sendUnsync p s).retryCount = s.retryCount := by simp [sendUnsync]
@[simp] theorem sendUnsync_tmrRx (p : List Byte) : (sendUnsync p s).tmrRx = s.tmrRx := by simp [sendUnsync]
@[simp] theorem sendUnsync_tmrAck (p : List Byte) : (sendUnsync p s).tmrAck = s.tmrAck := by simp [sendUnsync]
@[simp] theorem sendUnsync_ctx (p : List Byte) : (sendUnsync p s).ctx = s.ctx := by simp [sendUnsync]
@[simp] theorem sendUnsync_rxUserAcked (p : List Byte) : (sendUnsync p s).rxUserAcked = s.rxUserAcked := by simp [sendUnsync]
@[simp] theorem sendUnsync_fault (p : List Byte) : (sendUnsync p s).fault = s.fault := by simp [sendUnsync]
@[simp] theorem sendUnsync_prim (p : List Byte) : (sendUnsync p s).prim = s.prim := by simp [sendUnsync]
@[simp] theorem sendUnsync_trace (p : List Byte) : (sendUnsync p s).trace = s.trace ++ (encodeFrame s.crcUpdate .unsync 0 p).map Event.wire := by simp [sendUnsync]
@[simp] theorem sendUnsync_result (p : List Byte) : (sendUnsync p s).result = s.result := by simp [sendUnsync]
@[simp] theorem sendUnsync_pending (p : List Byte) : (sendUnsync p s).pending = s.pending := by simp [sendUnsync]
@[simp] theorem sendUnsync_draws (p : List Byte) : (sendUnsync p s).draws = s.draws := by simp [sendUnsync]

/-! ### `foldCrc` -/

@[simp] theorem foldCrc_cfg (b : Byte) : (foldCrc b s).cfg = s.cfg := rfl
@[simp] theorem foldCrc_crcUpdate (b : Byte) : (foldCrc b s).crcUpdate = s.crcUpdate := rfl
@[simp] theorem foldCrc_inited (b : Byte) : (foldCrc b s).inited = s.inited := rfl
@[simp] theorem foldCrc_rxState (b : Byte) : (foldCrc b s).rxState = s.rxState := rfl
@[simp] theorem foldCrc_rxKind (b : Byte) : (foldCrc b s).rxKind = s.rxKind := rfl
@[simp] theorem foldCrc_rxSeq (b : Byte) : (foldCrc b s).rxSeq = s.rxSeq := rfl
@[simp] theorem foldCrc_rxLc (b : Byte) : (foldCrc b s).rxLc = s.rxLc := rfl
@[simp] theorem foldCrc_rxLen (b : Byte) : (foldCrc b s).rxLen = s.rxLen := rfl
@[simp] theorem foldCrc_rxCount (b : Byte) : (foldCrc b s).rxCount = s.rxCount := rfl
@[simp] theorem foldCrc_rxCrc (b : Byte) : (foldCrc b s).rxCrc = crcUpdate s.crcUpdate s.rxCrc b := rfl
@[simp] theorem foldCrc_rxCrcHi (b : Byte) : (foldCrc b s).rxCrcHi = s.rxCrcHi := rfl
@[simp] theorem foldCrc_rxBuf (b : Byte) : (foldCrc b s).rxBuf = s.rxBuf := rfl
@[simp] theorem foldCrc_rxBufFill (b : Byte) : (foldCrc b s).rxBufFill = s.rxBufFill := rfl
@[simp] theorem foldCrc_txValid (b : Byte) : (foldCrc b s).txValid = s.txValid := rfl
@[simp] theorem foldCrc_txSeq (b : Byte) : (foldCrc b s).txSeq = s.txSeq := rfl
@[simp] theorem foldCrc_txPayload (b : Byte) : (foldCrc b s).txPayload = s.txPayload := rfl
@[simp] theorem foldCrc_txFrame (b : Byte) : (foldCrc b s).txFrame = s.txFrame := rfl
@[simp] theorem foldCrc_txSequence (b : Byte) : (foldCrc b s).txSequence = s.txSequence := rfl
@[simp] theorem foldCrc_awaitingAck (b : Byte) : (foldCrc b s).awaitingAck = s.awaitingAck := rfl
@[simp] theorem foldCrc_retryCount (b : Byte) : (foldCrc b s).retryCount = s.retryCount := rfl
@[simp] theorem foldCrc_tmrRx (b : Byte) : (foldCrc b s).tmrRx = s.tmrRx := rfl
@[simp] theorem foldCrc_tmrAck (b : Byte) : (foldCrc b s).tmrAck = s.tmrAck := rfl
@[simp] theorem foldCrc_ctx (b : Byte) : (foldCrc b s).ctx = s.ctx := rfl
@[simp] theorem foldCrc_rxUserAcked (b : Byte) : (foldCrc b s).rxUserAcked = s.rxUserAcked := rfl
@[simp] theorem foldCrc_fault (b : Byte) : (foldCrc b s).fault = s.fault := rfl
@[simp] theorem foldCrc_prim (b : Byte) : (foldCrc b s).prim = s.prim := rfl
@[simp] theorem foldCrc_trace (b : Byte) : (foldCrc b s).trace = s.trace := rfl
@[simp] theorem foldCrc_result (b : Byte) : (foldCrc b s).result = s.result := rfl
@[simp] theorem foldCrc_pending (b : Byte) : (foldCrc b s).pending = s.pending := rfl
@[simp] theorem foldCrc_draws (b : Byte) : (foldCrc b s).draws = s.draws := rfl

/-! ### `acceptPreamble` -/

@[simp] theorem acceptPreamble_cfg (t : Nat) : (acceptPreamble t s).cfg = s.cfg := by simp [acceptPreamble]
@[simp] theorem acceptPreamble_crcUpdate (t : Nat) : (acceptPreamble t s).crcUpdate = s.crcUpdate := by simp [acceptPreamble]
@[simp] theorem acceptPreamble_inited (t : Nat) : (acceptPreamble t s).inited = s.inited := by simp [acceptPreamble]
@[simp] theorem acceptPreamble_rxState (t : Nat) : (acceptPreamble t s).rxState = .expectHeaderHigh := by simp [acceptPreamble]
@[simp] theorem acceptPreamble_rxKind (t : Nat) : (acceptPreamble t s).rxKind = s.rxKind := by simp [acceptPreamble]
@[simp] theorem acceptPreamble_rxSeq (t : Nat) : (acceptPreamble t s).rxSeq = 0 := by simp [acceptPreamble]
@[simp] theorem acceptPreamble_rxLc (t : Nat) : (acceptPreamble t s).rxLc = s.rxLc := by simp [acceptPreamble]
@[simp] theorem acceptPreamble_rxLen (t : Nat) : (acceptPreamble t s).rxLen = s.rxLen := by simp [acceptPreamble]
@[simp] theorem acceptPreamble_rxCount (t : Nat) : (acceptPreamble t s).rxCount = s.rxCount := by simp [acceptPreamble]
@[simp] theorem acceptPreamble_rxCrc (t : Nat) : (acceptPreamble t s).rxCrc = crcInit := by simp [acceptPreamble]
@[simp] theorem acceptPreamble_rxCrcHi (t : Nat) : (acceptPreamble t s).rxCrcHi = s.rxCrcHi := by simp [acceptPreamble]
@[simp] theorem acceptPreamble_rxBuf (t : Nat) : (acceptPreamble t s).rxBuf = s.rxBuf := by simp [acceptPreamble]
@[simp] theorem acceptPreamble_rxBufFill (t : Nat) : (acceptPreamble t s).rxBufFill = s.rxBufFill := by simp [acceptPreamble]
@[simp] theorem acceptPreamble_txValid (t : Nat) : (acceptPreamble t s).txValid = s.txValid := by simp [acceptPreamble]
@[simp] theorem acceptPreamble_txSeq (t : Nat) : (acceptPreamble t s).txSeq = s.txSeq := by simp [acceptPreamble]
@[simp] theorem acceptPreamble_txPayload (t : Nat) : (acceptPreamble t s).txPayload = s.txPayload := by simp [acceptPreamble]
@[simp] theorem acceptPreamble_txFrame (t : Nat) : (acceptPreamble t s).txFrame = s.txFrame := by simp [acceptPreamble]
@[simp] theorem acceptPreamble_txSequence (t : Nat) : (acceptPreamble t s).txSequence = s.txSequence := by simp [acceptPreamble]
@[simp] theorem acceptPreamble_awaitingAck (t : Nat) : (acceptPreamble t s).awaitingAck = s.awaitingAck := by simp [acceptPreamble]
@[simp] theorem acceptPreamble_retryCount (t : Nat) : (acceptPreamble t s).retryCount = s.retryCount := by simp [acceptPreamble]
@[simp] theorem acceptPreamble_ctx (t : Nat) : (acceptPreamble t s).ctx = s.ctx := by simp [acceptPreamble]
@[simp] theorem acceptPreamble_rxUserAcked (t : Nat) : (acceptPreamble t s).rxUserAcked = s.rxUserAcked := by simp [acceptPreamble]
@[simp] theorem acceptPreamble_fault (t : Nat) : (acceptPreamble t s).fault = s.fault := by simp [acceptPreamble]
@[simp] theorem acceptPreamble_result (t : Nat) : (acceptPreamble t s).result = s.result := by simp [acceptPreamble]
@[simp] theorem acceptPreamble_pending (t : Nat) : (acceptPreamble t s).pending = s.pending := by simp [acceptPreamble]
@[simp] theorem acceptPreamble_draws (t : Nat) : (acceptPreamble t s).draws = s.draws := by simp [acceptPreamble]

/-! ### `inExpectHeaderHigh` -/

@[simp] theorem inExpectHeaderHigh_cfg (b : Byte) : (inExpectHeaderHigh b s).cfg = s.cfg := by simp [inExpectHeaderHigh]
@[simp] theorem inExpectHeaderHigh_crcUpdate (b : Byte) : (inExpectHeaderHigh b s).crcUpdate = s.crcUpdate := by simp [inExpectHeaderHigh]
@[simp] theorem inExpectHeaderHigh_inited (b : Byte) : (inExpectHeaderHigh b s).inited = s.inited := by simp [inExpectHeaderHigh]
@[simp] theorem inExpectHeaderHigh_rxState (b : Byte) : (inExpectHeaderHigh b s).rxState = if headerLen b = 0 then .expectCrcHigh else .expectHeaderLow := by simp [inExpectHeaderHigh]
@[simp] theorem inExpectHeaderHigh_rxKind (b : Byte) : (inExpectHeaderHigh b s).rxKind = headerKind b := by simp [inExpectHeaderHigh]
@[simp] theorem inExpectHeaderHigh_rxSeq (b : Byte) : (inExpectHeaderHigh b s).rxSeq = headerSeq b := by simp [inExpectHeaderHigh]
@[simp] theorem inExpectHeaderHigh_rxLc (b : Byte) : (inExpectHeaderHigh b s).rxLc = headerLen b := by simp [inExpectHeaderHigh]
@[simp] theorem inExpectHeaderHigh_rxLen (b : Byte) : (inExpectHeaderHigh b s).rxLen = if headerLen b = 0 then 0 else s.rxLen := by simp [inExpectHeaderHigh]
@[simp] theorem inExpectHeaderHigh_rxCount (b : Byte) : (inExpectHeaderHigh b s).rxCount = if headerLen b = 0 then 0 else s.rxCount := by simp [inExpectHeaderHigh]
@[simp] theorem inExpectHeaderHigh_rxCrc (b : Byte) : (inExpectHeaderHigh b s).rxCrc = crcUpdate s.crcUpdate s.rxCrc b := by simp [inExpectHeaderHigh]
@[simp] theorem inExpectHeaderHigh_rxCrcHi (b : Byte) : (inExpectHeaderHigh b s).rxCrcHi = s.rxCrcHi := by simp [inExpectHeaderHigh]
@[simp] theorem inExpectHeaderHigh_rxBuf (b : Byte) : (inExpectHeaderHigh b s).rxBuf = s.rxBuf := by simp [inExpectHeaderHigh]
@[simp] theorem inExpectHeaderHigh_rxBufFill (b : Byte) : (inExpectHeaderHigh b s).rxBufFill = s.rxBufFill := by simp [inExpectHeaderHigh]
@[simp] theorem inExpectHeaderHigh_txValid (b : Byte) : (inExpectHeaderHigh b s).txValid = s.txValid := by simp [inExpectHeaderHigh]
@[simp] theorem inExpectHeaderHigh_txSeq (b : Byte) : (inExpectHeaderHigh b s).txSeq = s.txSeq := by simp [inExpectHeaderHigh]
@[simp] theorem inExpectHeaderHigh_txPayload (b : Byte) : (inExpectHeaderHigh b s).txPayload = s.txPayload := by simp [inExpectHeaderHigh]
@[simp] theorem inExpectHeaderHigh_txFrame (b : Byte) : (inExpectHeaderHigh b s).txFrame = s.txFrame := by simp [inExpectHeaderHigh]
@[simp] theorem inExpectHeaderHigh_txSequence (b : Byte) : (inExpectHeaderHigh b s).txSequence = s.txSequence := by simp [inExpectHeaderHigh]
@[simp] theorem inExpectHeaderHigh_awaitingAck (b : Byte) : (inExpectHeaderHigh b s).awaitingAck = s.awaitingAck := by simp [inExpectHeaderHigh]
@[simp] theorem inExpectHeaderHigh_retryCount (b : Byte) : (inExpectHeaderHigh b s).retryCount = s.retryCount := by simp [inExpectHeaderHigh]
@[simp] theorem inExpectHeaderHigh_tmrRx (b : Byte) : (inExpectHeaderHigh b s).tmrRx = s.tmrRx := by simp [inExpectHeaderHigh]
@[simp] theorem inExpectHeaderHigh_tmrAck (b : Byte) : (inExpectHeaderHigh b s).tmrAck = s.tmrAck := by simp [inExpectHeaderHigh]
@[simp] theorem inExpectHeaderHigh_ctx (b : Byte) : (inExpectHeaderHigh b s).ctx = s.ctx := by simp [inExpectHeaderHigh]
@[simp] theorem inExpectHeaderHigh_rxUserAcked (b : Byte) : (inExpectHeaderHigh b s).rxUserAcked = s.rxUserAcked := by simp [inExpectHeaderHigh]
@[simp] theorem inExpectHeaderHigh_fault (b : Byte) : (inExpectHeaderHigh b s).fault = s.fault := by simp [inExpectHeaderHigh]
@[simp] theorem inExpectHeaderHigh_prim (b : Byte) : (inExpectHeaderHigh b s).prim = s.prim := by simp [inExpectHeaderHigh]
@[simp] theorem inExpectHeaderHigh_trace (b : Byte) : (inExpectHeaderHigh b s).trace = s.trace := by simp [inExpectHeaderHigh]
@[simp] theorem inExpectHeaderHigh_result (b : Byte) : (inExpectHeaderHigh b s).result = s.result := by simp [inExpectHeaderHigh]
@[simp] theorem inExpectHeaderHigh_pending (b : Byte) : (inExpectHeaderHigh b s).pending = s.pending := by simp [inExpectHeaderHigh]
@[simp] theorem inExpectHeaderHigh_draws (b : Byte) : (inExpectHeaderHigh b s).draws = s.draws := by simp [inExpectHeaderHigh]

/-! ### `inExpectHeaderLow` -/

@[simp] theorem inExpectHeaderLow_cfg (b : Byte) : (inExpectHeaderLow b s).cfg = s.cfg := by simp [inExpectHeaderLow]
@[simp] theorem inExpectHeaderLow_crcUpdate (b : Byte) : (inExpectHeaderLow b s).crcUpdate = s.crcUpdate := by simp [inExpectHeaderLow]
@[simp] theorem inExpectHeaderLow_inited (b : Byte) : (inExpectHeaderLow b s).inited = s.inited := by simp [inExpectHeaderLow]
@[simp] theorem inExpectHeaderLow_rxState (b : Byte) : (inExpectHeaderLow b s).rxState = .receivingData := by simp [inExpectHeaderLow]
@[simp] theorem inExpectHeaderLow_rxKind (b : Byte) : (inExpectHeaderLow b s).rxKind = s.rxKind := by simp [inExpectHeaderLow]
@[simp] theorem inExpectHeaderLow_rxSeq (b : Byte) : (inExpectHeaderLow b s).rxSeq = s.rxSeq := by simp [inExpectHeaderLow]
@[simp] theorem inExpectHeaderLow_rxLc (b : Byte) : (inExpectHeaderLow b s).rxLc = s.rxLc := by simp [inExpectHeaderLow]
@[simp] theorem inExpectHeaderLow_rxLen (b : Byte) : (inExpectHeaderLow b s).rxLen = assembleLength s.rxLc b := by simp [inExpectHeaderLow]
@[simp] theorem inExpectHeaderLow_rxCount (b : Byte) : (inExpectHeaderLow b s).rxCount = 0 := by simp [inExpectHeaderLow]
@[simp] theorem inExpectHeaderLow_rxCrc (b : Byte) : (inExpectHeaderLow b s).rxCrc = crcUpdate s.crcUpdate s.rxCrc b := by simp [inExpectHeaderLow]
@[simp] theorem inExpectHeaderLow_rxCrcHi (b : Byte) : (inExpectHeaderLow b s).rxCrcHi = s.rxCrcHi := by simp [inExpectHeaderLow]
@[simp] theorem inExpectHeaderLow_rxBuf (b : Byte) : (inExpectHeaderLow b s).rxBuf = s.rxBuf := by simp [inExpectHeaderLow]
@[simp] theorem inExpectHeaderLow_rxBufFill (b : Byte) : (inExpectHeaderLow b s).rxBufFill = s.rxBufFill := by simp [inExpectHeaderLow]
@[simp] theorem inExpectHeaderLow_txValid (b : Byte) : (inExpectHeaderLow b s).txValid = s.txValid := by simp [inExpectHeaderLow]
@[simp] theorem inExpectHeaderLow_txSeq (b : Byte) : (inExpectHeaderLow b s).txSeq = s.txSeq := by simp [inExpectHeaderLow]
@[simp] theorem inExpectHeaderLow_txPayload (b : Byte) : (inExpectHeaderLow b s).txPayload = s.txPayload := by simp [inExpectHeaderLow]
@[simp] theorem inExpectHeaderLow_txFrame (b : Byte) : (inExpectHeaderLow b s).txFrame = s.txFrame := by simp [inExpectHeaderLow]
@[simp] theorem inExpectHeaderLow_txSequence (b : Byte) : (inExpectHeaderLow b s).txSequence = s.txSequence := by simp [inExpectHeaderLow]
@[simp] theorem inExpectHeaderLow_awaitingAck (b : Byte) : (inExpectHeaderLow b s).awaitingAck = s.awaitingAck := by simp [inExpectHeaderLow]
@[simp] theorem inExpectHeaderLow_retryCount (b : Byte) : (inExpectHeaderLow b s).retryCount = s.retryCount := by simp [inExpectHeaderLow]
@[simp] theorem inExpectHeaderLow_tmrRx (b : Byte) : (inExpectHeaderLow b s).tmrRx = s.tmrRx := by simp [inExpectHeaderLow]
@[simp] theorem inExpectHeaderLow_tmrAck (b : Byte) : (inExpectHeaderLow b s).tmrAck = s.tmrAck := by simp [inExpectHeaderLow]
@[simp] theorem inExpectHeaderLow_ctx (b : Byte) : (inExpectHeaderLow b s).ctx = s.ctx := by simp [inExpectHeaderLow]
@[simp] theorem inExpectHeaderLow_rxUserAcked (b : Byte) : (inExpectHeaderLow b s).rxUserAcked = s.rxUserAcked := by simp [inExpectHeaderLow]
@[simp] theorem inExpectHeaderLow_fault (b : Byte) : (inExpectHeaderLow b s).fault = s.fault := by simp [inExpectHeaderLow]
@[simp] theorem inExpectHeaderLow_prim (b : Byte) : (inExpectHeaderLow b s).prim = s.prim := by simp [inExpectHeaderLow]
@[simp] theorem inExpectHeaderLow_trace (b : Byte) : (inExpectHeaderLow b s).trace = s.trace := by simp [inExpectHeaderLow]
@[simp] theorem inExpectHeaderLow_result (b : Byte) : (inExpectHeaderLow b s).result = s.result := by simp [inExpectHeaderLow]
@[simp] theorem inExpectHeaderLow_pending (b : Byte) : (inExpectHeaderLow b s).pending = s.pending := by simp [inExpectHeaderLow]
@[simp] theorem inExpectHeaderLow_draws (b : Byte) : (inExpectHeaderLow b s).draws = s.draws := by simp [inExpectHeaderLow]

/-! ### `storePayloadByte` -/

@[simp] theorem storePayloadByte_cfg (b : Byte) : (storePayloadByte b s).cfg = s.cfg := by simp [storePayloadByte]
@[simp] theorem storePayloadByte_crcUpdate (b : Byte) : (storePayloadByte b s).crcUpdate = s.crcUpdate := by simp [storePayloadByte]
@[simp] theorem storePayloadByte_inited (b : Byte) : (storePayloadByte b s).inited = s.inited := by simp [storePayloadByte]
@[simp] theorem storePayloadByte_rxState (b : Byte) : (storePayloadByte b s).rxState = if s.rxCount + 1 = s.rxLen then .expectCrcHigh else .receivingData := by simp [storePayloadByte]
@[simp] theorem storePayloadByte_rxKind (b : Byte) : (storePayloadByte b s).rxKind = s.rxKind := by simp [storePayloadByte]
@[simp] theorem storePayloadByte_rxSeq (b : Byte) : (storePayloadByte b s).rxSeq = s.rxSeq := by simp [storePayloadByte]
@[simp] theorem storePayloadByte_rxLc (b : Byte) : (storePayloadByte b s).rxLc = s.rxLc := by simp [storePayloadByte]
@[simp] theorem storePayloadByte_rxLen (b : Byte) : (storePayloadByte b s).rxLen = s.rxLen := by simp [storePayloadByte]
@[simp] theorem storePayloadByte_rxCount (b : Byte) : (storePayloadByte b s).rxCount = s.rxCount + 1 := by simp [storePayloadByte]
@[simp] theorem storePayloadByte_rxCrc (b : Byte) : (storePayloadByte b s).rxCrc = crcUpdate s.crcUpdate s.rxCrc b := by simp [storePayloadByte]
@[simp] theorem storePayloadByte_rxCrcHi (b : Byte) : (storePayloadByte b s).rxCrcHi = s.rxCrcHi := by simp [storePayloadByte]
@[simp] theorem storePayloadByte_rxBuf (b : Byte) : (storePayloadByte b s).rxBuf = Memory.write s.rxBufFill s.rxBuf s.rxCount b := by simp [storePayloadByte]
@[simp] theorem storePayloadByte_rxBufFill (b : Byte) : (storePayloadByte b s).rxBufFill = s.rxBufFill := by simp [storePayloadByte]
@[simp] theorem storePayloadByte_txValid (b : Byte) : (storePayloadByte b s).txValid = s.txValid := by simp [storePayloadByte]
@[simp] theorem storePayloadByte_txSeq (b : Byte) : (storePayloadByte b s).txSeq = s.txSeq := by simp [storePayloadByte]
@[simp] theorem storePayloadByte_txPayload (b : Byte) : (storePayloadByte b s).txPayload = s.txPayload := by simp [storePayloadByte]
@[simp] theorem storePayloadByte_txFrame (b : Byte) : (storePayloadByte b s).txFrame = s.txFrame := by simp [storePayloadByte]
@[simp] theorem storePayloadByte_txSequence (b : Byte) : (storePayloadByte b s).txSequence = s.txSequence := by simp [storePayloadByte]
@[simp] theorem storePayloadByte_awaitingAck (b : Byte) : (storePayloadByte b s).awaitingAck = s.awaitingAck := by simp [storePayloadByte]
@[simp] theorem storePayloadByte_retryCount (b : Byte) : (storePayloadByte b s).retryCount = s.retryCount := by simp [storePayloadByte]
@[simp] theorem storePayloadByte_tmrRx (b : Byte) : (storePayloadByte b s).tmrRx = s.tmrRx := by simp [storePayloadByte]
@[simp] theorem storePayloadByte_tmrAck (b : Byte) : (storePayloadByte b s).tmrAck = s.tmrAck := by simp [storePayloadByte]
@[simp] theorem storePayloadByte_ctx (b : Byte) : (storePayloadByte b s).ctx = s.ctx := by simp [storePayloadByte]
@[simp] theorem storePayloadByte_rxUserAcked (b : Byte) : (storePayloadByte b s).rxUserAcked = s.rxUserAcked := by simp [storePayloadByte]
@[simp] theorem storePayloadByte_fault (b : Byte) : (storePayloadByte b s).fault = s.fault := by simp [storePayloadByte]
@[simp] theorem storePayloadByte_prim (b : Byte) : (storePayloadByte b s).prim = s.prim := by simp [storePayloadByte]
@[simp] theorem storePayloadByte_trace (b : Byte) : (storePayloadByte b s).trace = s.trace := by simp [storePayloadByte]
@[simp] theorem storePayloadByte_result (b : Byte) : (storePayloadByte b s).result = s.result := by simp [storePayloadByte]
@[simp] theorem storePayloadByte_pending (b : Byte) : (storePayloadByte b s).pending = s.pending := by simp [storePayloadByte]
@[simp] theorem storePayloadByte_draws (b : Byte) : (storePayloadByte b s).draws = s.draws := by simp [storePayloadByte]

/-! ### `inExpectCrcHigh` -/

@[simp] theorem inExpectCrcHigh_cfg (b : Byte) : (inExpectCrcHigh b s).cfg = s.cfg := rfl
@[simp] theorem inExpectCrcHigh_crcUpdate (b : Byte) : (inExpectCrcHigh b s).crcUpdate = s.crcUpdate := rfl
@[simp] theorem inExpectCrcHigh_inited (b : Byte) : (inExpectCrcHigh b s).inited = s.inited := rfl
@[simp] theorem inExpectCrcHigh_rxState (b : Byte) : (inExpectCrcHigh b s).rxState = .expectCrcLow := rfl
@[simp] theorem inExpectCrcHigh_rxKind (b : Byte) : (inExpectCrcHigh b s).rxKind = s.rxKind := rfl
@[simp] theorem inExpectCrcHigh_rxSeq (b : Byte) : (inExpectCrcHigh b s).rxSeq = s.rxSeq := rfl
@[simp] theorem inExpectCrcHigh_rxLc (b : Byte) : (inExpectCrcHigh b s).rxLc = s.rxLc := rfl
@[simp] theorem inExpectCrcHigh_rxLen (b : Byte) : (inExpectCrcHigh b s).rxLen = s.rxLen := rfl
@[simp] theorem inExpectCrcHigh_rxCount (b : Byte) : (inExpectCrcHigh b s).rxCount = s.rxCount := rfl
@[simp] theorem inExpectCrcHigh_rxCrc (b : Byte) : (inExpectCrcHigh b s).rxCrc = s.rxCrc := rfl
@[simp] theorem inExpectCrcHigh_rxCrcHi (b : Byte) : (inExpectCrcHigh b s).rxCrcHi = b := rfl
@[simp] theorem inExpectCrcHigh_rxBuf (b : Byte) : (inExpectCrcHigh b s).rxBuf = s.rxBuf := rfl
@[simp] theorem inExpectCrcHigh_rxBufFill (b : Byte) : (inExpectCrcHigh b s).rxBufFill = s.rxBufFill := rfl
@[simp] theorem inExpectCrcHigh_txValid (b : Byte) : (inExpectCrcHigh b s).txValid = s.txValid := rfl
@[simp] theorem inExpectCrcHigh_txSeq (b : Byte) : (inExpectCrcHigh b s).txSeq = s.txSeq := rfl
@[simp] theorem inExpectCrcHigh_txPayload (b : Byte) : (inExpectCrcHigh b s).txPayload = s.txPayload := rfl
@[simp] theorem inExpectCrcHigh_txFrame (b : Byte) : (inExpectCrcHigh b s).txFrame = s.txFrame := rfl
@[simp] theorem inExpectCrcHigh_txSequence (b : Byte) : (inExpectCrcHigh b s).txSequence = s.txSequence := rfl
@[simp] theorem inExpectCrcHigh_awaitingAck (b : Byte) : (inExpectCrcHigh b s).awaitingAck = s.awaitingAck := rfl
@[simp] theorem inExpectCrcHigh_retryCount (b : Byte) : (inExpectCrcHigh b s).retryCount = s.retryCount := rfl
@[simp] theorem inExpectCrcHigh_tmrRx (b : Byte) : (inExpectCrcHigh b s).tmrRx = s.tmrRx := rfl
@[simp] theorem inExpectCrcHigh_tmrAck (b : Byte) : (inExpectCrcHigh b s).tmrAck = s.tmrAck := rfl
@[simp] theorem inExpectCrcHigh_ctx (b : Byte) : (inExpectCrcHigh b s).ctx = s.ctx := rfl
@[simp] theorem inExpectCrcHigh_rxUserAcked (b : Byte) : (inExpectCrcHigh b s).rxUserAcked = s.rxUserAcked := rfl
@[simp] theorem inExpectCrcHigh_fault (b : Byte) : (inExpectCrcHigh b s).fault = s.fault := rfl
@[simp] theorem inExpectCrcHigh_prim (b : Byte) : (inExpectCrcHigh b s).prim = s.prim := rfl
@[simp] theorem inExpectCrcHigh_trace (b : Byte) : (inExpectCrcHigh b s).trace = s.trace := rfl
@[simp] theorem inExpectCrcHigh_result (b : Byte) : (inExpectCrcHigh b s).result = s.result := rfl
@[simp] theorem inExpectCrcHigh_pending (b : Byte) : (inExpectCrcHigh b s).pending = s.pending := rfl
@[simp] theorem inExpectCrcHigh_draws (b : Byte) : (inExpectCrcHigh b s).draws = s.draws := rfl

/-! ### `endFrame` -/

@[simp] theorem endFrame_cfg (t : Nat) : (endFrame t s).cfg = s.cfg := by simp [endFrame]
@[simp] theorem endFrame_crcUpdate (t : Nat) : (endFrame t s).crcUpdate = s.crcUpdate := by simp [endFrame]
@[simp] theorem endFrame_inited (t : Nat) : (endFrame t s).inited = s.inited := by simp [endFrame]
@[simp] theorem endFrame_rxState (t : Nat) : (endFrame t s).rxState = .expectPreamble := by simp [endFrame]
@[simp] theorem endFrame_rxKind (t : Nat) : (endFrame t s).rxKind = s.rxKind := by simp [endFrame]
@[simp] theorem endFrame_rxSeq (t : Nat) : (endFrame t s).rxSeq = s.rxSeq := by simp [endFrame]
@[simp] theorem endFrame_rxLc (t : Nat) : (endFrame t s).rxLc = s.rxLc := by simp [endFrame]
@[simp] theorem endFrame_rxLen (t : Nat) : (endFrame t s).rxLen = s.rxLen := by simp [endFrame]
@[simp] theorem endFrame_rxCount (t : Nat) : (endFrame t s).rxCount = s.rxCount := by simp [endFrame]
@[simp] theorem endFrame_rxCrc (t : Nat) : (endFrame t s).rxCrc = s.rxCrc := by simp [endFrame]
@[simp] theorem endFrame_rxCrcHi (t : Nat) : (endFrame t s).rxCrcHi = s.rxCrcHi := by simp [endFrame]
@[simp] theorem endFrame_rxBuf (t : Nat) : (endFrame t s).rxBuf = s.rxBuf := by simp [endFrame]
@[simp] theorem endFrame_rxBufFill (t : Nat) : (endFrame t s).rxBufFill = s.rxBufFill := by simp [endFrame]
@[simp] theorem endFrame_txValid (t : Nat) : (endFrame t s).txValid = s.txValid := by simp [endFrame]
@[simp] theorem endFrame_txSeq (t : Nat) : (endFrame t s).txSeq = s.txSeq := by simp [endFrame]
@[simp] theorem endFrame_txPayload (t : Nat) : (endFrame t s).txPayload = s.txPayload := by simp [endFrame]
@[simp] theorem endFrame_txFrame (t : Nat) : (endFrame t s).txFrame = s.txFrame := by simp [endFrame]
@[simp] theorem endFrame_txSequence (t : Nat) : (endFrame t s).txSequence = s.txSequence := by simp [endFrame]
@[simp] theorem endFrame_awaitingAck (t : Nat) : (endFrame t s).awaitingAck = s.awaitingAck := by simp [endFrame]
@[simp] theorem endFrame_retryCount (t : Nat) : (endFrame t s).retryCount = s.retryCount := by simp [endFrame]
@[simp] theorem endFrame_ctx (t : Nat) : (endFrame t s).ctx = s.ctx := by simp [endFrame]
@[simp] theorem endFrame_rxUserAcked (t : Nat) : (endFrame t s).rxUserAcked = s.rxUserAcked := by simp [endFrame]
@[simp] theorem endFrame_fault (t : Nat) : (endFrame t s).fault = s.fault := by simp [endFrame]
@[simp] theorem endFrame_result (t : Nat) : (endFrame t s).result = s.result := by simp [endFrame]
@[simp] theorem endFrame_pending (t : Nat) : (endFrame t s).pending = s.pending := by simp [endFrame]
@[simp] theorem endFrame_draws (t : Nat) : (endFrame t s).draws = s.draws := by simp [endFrame]

/-! ### `rxTimeoutHandler` -/

@[simp] theorem rxTimeoutHandler_cfg : (rxTimeoutHandler s).cfg = s.cfg := by simp [rxTimeoutHandler]
@[simp] theorem rxTimeoutHandler_crcUpdate : (rxTimeoutHandler s).crcUpdate = s.crcUpdate := by simp [rxTimeoutHandler]
@[simp] theorem rxTimeoutHandler_inited : (rxTimeoutHandler s).inited = s.inited := by simp [rxTimeoutHandler]
@[simp] theorem rxTimeoutHandler_rxState : (rxTimeoutHandler s).rxState = .expectPreamble := by simp [rxTimeoutHandler]
@[simp] theorem rxTimeoutHandler_rxKind : (rxTimeoutHandler s).rxKind = s.rxKind := by simp [rxTimeoutHandler]
@[simp] theorem rxTimeoutHandler_rxSeq : (rxTimeoutHandler s).rxSeq = s.rxSeq := by simp [rxTimeoutHandler]
@[simp] theorem rxTimeoutHandler_rxLc : (rxTimeoutHandler s).rxLc = s.rxLc := by simp [rxTimeoutHandler]
@[simp] theorem rxTimeoutHandler_rxLen : (rxTimeoutHandler s).rxLen = s.rxLen := by simp [rxTimeoutHandler]
@[simp] theorem rxTimeoutHandler_rxCount : (rxTimeoutHandler s).rxCount = s.rxCount := by simp [rxTimeoutHandler]
@[simp] theorem rxTimeoutHandler_rxCrc : (rxTimeoutHandler s).rxCrc = s.rxCrc := by simp [rxTimeoutHandler]
@[simp] theorem rxTimeoutHandler_rxCrcHi : (rxTimeoutHandler s).rxCrcHi = s.rxCrcHi := by simp [rxTimeoutHandler]
@[simp] theorem rxTimeoutHandler_rxBuf : (rxTimeoutHandler s).rxBuf = s.rxBuf := by simp [rxTimeoutHandler]
@[simp] theorem rxTimeoutHandler_rxBufFill : (rxTimeoutHandler s).rxBufFill = s.rxBufFill := by simp [rxTimeoutHandler]
@[simp] theorem rxTimeoutHandler_txValid : (rxTimeoutHandler s).txValid = s.txValid := by simp [rxTimeoutHandler]
@[simp] theorem rxTimeoutHandler_txSeq : (rxTimeoutHandler s).txSeq = s.txSeq := by simp [rxTimeoutHandler]
@[simp] theorem rxTimeoutHandler_txPayload : (rxTimeoutHandler s).txPayload = s.txPayload := by simp [rxTimeoutHandler]
@[simp] theorem rxTimeoutHandler_txFrame : (rxTimeoutHandler s).txFrame = s.txFrame := by simp [rxTimeoutHandler]
@[simp] theorem rxTimeoutHandler_txSequence : (rxTimeoutHandler s).txSequence = s.txSequence := by simp [rxTimeoutHandler]
@[simp] theorem rxTimeoutHandler_awaitingAck : (rxTimeoutHandler s).awaitingAck = s.awaitingAck := by simp [rxTimeoutHandler]
@[simp] theorem rxTimeoutHandler_retryCount : (rxTimeoutHandler s).retryCount = s.retryCount := by simp [rxTimeoutHandler]
@[simp] theorem rxTimeoutHandler_tmrRx : (rxTimeoutHandler s).tmrRx = s.tmrRx := by simp [rxTimeoutHandler]
@[simp] theorem rxTimeoutHandler_tmrAck : (rxTimeoutHandler s).tmrAck = s.tmrAck := by simp [rxTimeoutHandler]
@[simp] theorem rxTimeoutHandler_ctx : (rxTimeoutHandler s).ctx = s.ctx := by simp [rxTimeoutHandler]
@[simp] theorem rxTimeoutHandler_rxUserAcked : (rxTimeoutHandler s).rxUserAcked = s.rxUserAcked := by simp [rxTimeoutHandler]
@[simp] theorem rxTimeoutHandler_fault : (rxTimeoutHandler s).fault = s.fault := by simp [rxTimeoutHandler]
@[simp] theorem rxTimeoutHandler_prim : (rxTimeoutHandler s).prim = s.prim := by simp [rxTimeoutHandler]
@[simp] theorem rxTimeoutHandler_trace : (rxTimeoutHandler s).trace = s.trace ++ (encodeFrame s.crcUpdate .nack s.rxSeq [codeRxTimeout]).map Event.wire := by simp [rxTimeoutHandler]
@[simp] theorem rxTimeoutHandler_result : (rxTimeoutHandler s).result = s.result := by simp [rxTimeoutHandler]
@[simp] theorem rxTimeoutHandler_pending : (rxTimeoutHandler s).pending = s.pending := by simp [rxTimeoutHandler]
@[simp] theorem rxTimeoutHandler_draws : (rxTimeoutHandler s).draws = s.draws := by simp [rxTimeoutHandler]

/-! ### `disarmFired` -/

@[simp] theorem disarmFired_cfg : (disarmFired s).cfg = s.cfg := rfl
@[simp] theorem disarmFired_crcUpdate : (disarmFired s).crcUpdate = s.crcUpdate := rfl
@[simp] theorem disarmFired_inited : (disarmFired s).inited = s.inited := rfl
@[simp] theorem disarmFired_rxState : (disarmFired s).rxState = s.rxState := rfl
@[simp] theorem disarmFired_rxKind : (disarmFired s).rxKind = s.rxKind := rfl
@[simp] theorem disarmFired_rxSeq : (disarmFired s).rxSeq = s.rxSeq := rfl
@[simp] theorem disarmFired_rxLc : (disarmFired s).rxLc = s.rxLc := rfl
@[simp] theorem disarmFired_rxLen : (disarmFired s).rxLen = s.rxLen := rfl
@[simp] theorem disarmFired_rxCount : (disarmFired s).rxCount = s.rxCount := rfl
@[simp] theorem disarmFired_rxCrc : (disarmFired s).rxCrc = s.rxCrc := rfl
@[simp] theorem disarmFired_rxCrcHi : (disarmFired s).rxCrcHi = s.rxCrcHi := rfl
@[simp] theorem disarmFired_rxBuf : (disarmFired s).rxBuf = s.rxBuf := rfl
@[simp] theorem disarmFired_rxBufFill : (disarmFired s).rxBufFill = s.rxBufFill := rfl
@[simp] theorem disarmFired_txValid : (disarmFired s).txValid = s.txValid := rfl
@[simp] theorem disarmFired_txSeq : (disarmFired s).txSeq = s.txSeq := rfl
@[simp] theorem disarmFired_txPayload : (disarmFired s).txPayload = s.txPayload := rfl
@[simp] theorem disarmFired_txFrame : (disarmFired s).txFrame = s.txFrame := rfl
@[simp] theorem disarmFired_txSequence : (disarmFired s).txSequence = s.txSequence := rfl
@[simp] theorem disarmFired_awaitingAck : (disarmFired s).awaitingAck = s.awaitingAck := rfl
@[simp] theorem disarmFired_retryCount : (disarmFired s).retryCount = s.retryCount := rfl
@[simp] theorem disarmFired_ctx : (disarmFired s).ctx = s.ctx := rfl
@[simp] theorem disarmFired_rxUserAcked : (disarmFired s).rxUserAcked = s.rxUserAcked := rfl
@[simp] theorem disarmFired_fault : (disarmFired s).fault = s.fault := rfl
@[simp] theorem disarmFired_prim : (disarmFired s).prim = s.prim := rfl
@[simp] theorem disarmFired_trace : (disarmFired s).trace = s.trace := rfl
@[simp] theorem disarmFired_result : (disarmFired s).result = s.result := rfl
@[simp] theorem disarmFired_pending : (disarmFired s).pending = s.pending := rfl
@[simp] theorem disarmFired_draws : (disarmFired s).draws = s.draws := rfl

/-! ### `runInit` -/

@[simp] theorem runInit_cfg (c : Cfg) : (runInit c s).cfg = c := rfl
@[simp] theorem runInit_crcUpdate (c : Cfg) : (runInit c s).crcUpdate = s.crcUpdate := rfl
@[simp] theorem runInit_inited (c : Cfg) : (runInit c s).inited = true := rfl
@[simp] theorem runInit_rxState (c : Cfg) : (runInit c s).rxState = .expectPreamble := rfl
@[simp] theorem runInit_rxSeq (c : Cfg) : (runInit c s).rxSeq = 0 := rfl
@[simp] theorem runInit_rxBuf (c : Cfg) : (runInit c s).rxBuf = [] := rfl
@[simp] theorem runInit_rxBufFill (c : Cfg) : (runInit c s).rxBufFill = .drawn s.draws := rfl
@[simp] theorem runInit_txValid (c : Cfg) : (runInit c s).txValid = false := rfl
@[simp] theorem runInit_txSequence (c : Cfg) : (runInit c s).txSequence = 1 := rfl
@[simp] theorem runInit_awaitingAck (c : Cfg) : (runInit c s).awaitingAck = false := rfl
@[simp] theorem runInit_retryCount (c : Cfg) : (runInit c s).retryCount = 0 := rfl
@[simp] theorem runInit_ctx (c : Cfg) : (runInit c s).ctx = .idle := rfl
@[simp] theorem runInit_rxUserAcked (c : Cfg) : (runInit c s).rxUserAcked = false := rfl
@[simp] theorem runInit_fault (c : Cfg) : (runInit c s).fault = s.fault := rfl
@[simp] theorem runInit_prim (c : Cfg) : (runInit c s).prim = s.prim := rfl
@[simp] theorem runInit_trace (c : Cfg) : (runInit c s).trace = s.trace := rfl
@[simp] theorem runInit_result (c : Cfg) : (runInit c s).result = s.result := rfl
@[simp] theorem runInit_pending (c : Cfg) : (runInit c s).pending = s.pending := rfl
@[simp] theorem runInit_draws (c : Cfg) : (runInit c s).draws = s.draws + 1 := rfl

end Sys2Proof.Machine
end

