-- ==== Sys2Proof/Laws/Memory.lean ====
section
/-! SUPPORT. The laws of the receive buffer: a read after a write, the canonical form, and what reading a payload
gives. -/

namespace Sys2Proof.Machine

/-! ### A read after a write -/

theorem unlistedByte_of_isBlank {fill : Fill} {v : Byte} (h : isBlank fill v = true) (a : Nat) :
    unlistedByte fill a = v := by
  cases fill <;> simp_all [isBlank, unlistedByte]

theorem Memory.read_erase (fill : Fill) (m : Memory) (a b : Nat) :
    Memory.read fill (Memory.erase m a) b = if b = a then unlistedByte fill b else Memory.read fill m b := by
  induction m with
  | nil => simp [Memory.erase, Memory.read]
  | cons c m ih =>
    simp only [Memory.erase] at ih ⊢
    by_cases hc : c.1 = a
    · rw [List.filter_cons_of_neg (by simp [hc]), ih]
      by_cases hb : b = a <;> simp [Memory.read, hb, hc]
    · rw [List.filter_cons_of_pos (by simp [hc]), Memory.read, ih, Memory.read]
      by_cases hb : b = c.1
      · simp [hb, hc]
      · simp [hb]

theorem Memory.read_insert (fill : Fill) (m : Memory) (a b : Nat) (v : Byte) :
    Memory.read fill (Memory.insert m a v) b = if b = a then v else Memory.read fill m b := by
  induction m with
  | nil => simp only [Memory.insert, Memory.read]
  | cons c m ih =>
    simp only [Memory.insert]
    split
    · simp [Memory.read]
    · split
      · rename_i h
        by_cases hb : b = a <;> simp [Memory.read, hb, ← h]
      · rename_i h
        by_cases hc : b = c.1
        · simp [Memory.read, hc, Ne.symm h]
        · simp [Memory.read, hc, ih]

/-- A read after a write gives the byte written, and leaves every other address alone. -/
theorem Memory.read_write (fill : Fill) (m : Memory) (a b : Nat) (v : Byte) :
    Memory.read fill (Memory.write fill m a v) b = if b = a then v else Memory.read fill m b := by
  cases h : isBlank fill v
  · simp [Memory.write, h, Memory.read_insert]
  · simp [Memory.write, h, Memory.read_erase, unlistedByte_of_isBlank h]

theorem Memory.read_write_same (fill : Fill) (m : Memory) (a : Nat) (v : Byte) :
    Memory.read fill (Memory.write fill m a v) a = v := by simp [Memory.read_write]

theorem Memory.read_write_other (fill : Fill) (m : Memory) {a b : Nat} (v : Byte) (h : b ≠ a) :
    Memory.read fill (Memory.write fill m a v) b = Memory.read fill m b := by simp [Memory.read_write, h]

/-! ### The canonical form -/

/-- Every entry after a write is the one written or an old one. -/
theorem Memory.mem_write {fill : Fill} {m : Memory} {a : Nat} {v : Byte} {c : Host.Cell}
    (h : c ∈ Memory.write fill m a v) : (c = (a, v) ∧ isBlank fill v = false) ∨ c ∈ m := by
  have inserted : ∀ m, c ∈ Memory.insert m a v → c = (a, v) ∨ c ∈ m := by
    intro m
    induction m with
    | nil => simp [Memory.insert]
    | cons d m ih =>
      simp only [Memory.insert]
      split
      · simp
      · split <;> simp only [List.mem_cons]
        · tauto
        · rintro (rfl | h)
          · simp
          · have := ih h; tauto
  cases hb : isBlank fill v
  · simp only [Memory.write, hb, Bool.false_eq_true, if_false] at h
    simpa using inserted m h
  · simp only [Memory.write, hb, if_true, Memory.erase] at h
    exact .inr (List.mem_of_mem_filter h)

theorem Memory.rising_erase (m : Memory) (a : Nat) (h : Memory.rising m = true) :
    Memory.rising (Memory.erase m a) = true := by
  induction m with
  | nil => rfl
  | cons c m ih =>
    simp only [Memory.rising, Bool.and_eq_true, List.all_eq_true] at h
    simp only [Memory.erase] at ih ⊢
    rw [List.filter_cons]
    split
    · simp only [Memory.rising, Bool.and_eq_true, List.all_eq_true]
      exact ⟨fun d hd => h.1 d (List.mem_of_mem_filter hd), ih h.2⟩
    · exact ih h.2

theorem Memory.rising_insert (m : Memory) (a : Nat) (v : Byte) (h : Memory.rising m = true) :
    Memory.rising (Memory.insert m a v) = true := by
  have lower : ∀ (m : Memory) (k : Nat), k < a → (∀ d ∈ m, k < d.1) → ∀ d ∈ Memory.insert m a v, k < d.1 := by
    intro m k hk
    induction m with
    | nil => simp [Memory.insert, hk]
    | cons c m ih =>
      intro hm
      simp only [List.mem_cons, forall_eq_or_imp] at hm
      simp only [Memory.insert]
      split
      · simpa [hk, hm.1] using hm.2
      · split
        · simpa [hk] using hm.2
        · simpa [hm.1] using ih hm.2
  induction m with
  | nil => rfl
  | cons c m ih =>
    simp only [Memory.rising, Bool.and_eq_true, List.all_eq_true, decide_eq_true_eq] at h
    simp only [Memory.insert]
    split
    · rename_i hlt
      simp only [Memory.rising, Bool.and_eq_true, List.all_eq_true, List.mem_cons, forall_eq_or_imp,
        decide_eq_true_eq]
      exact ⟨⟨hlt, fun d hd => Nat.lt_trans hlt (h.1 d hd)⟩, h⟩
    · split
      · rename_i heq
        simp only [Memory.rising, Bool.and_eq_true, List.all_eq_true, decide_eq_true_eq]
        exact ⟨by simpa [heq] using h.1, h.2⟩
      · simp only [Memory.rising, Bool.and_eq_true, List.all_eq_true, decide_eq_true_eq]
        exact ⟨lower m c.1 (by omega) h.1, ih h.2⟩

/-- Every write keeps the canonical form. -/
theorem Memory.wf_write (fill : Fill) (m : Memory) (a : Nat) (v : Byte) (h : Memory.wf fill m = true) :
    Memory.wf fill (Memory.write fill m a v) = true := by
  simp only [Memory.wf, Bool.and_eq_true, List.all_eq_true] at h ⊢
  refine ⟨?_, fun c hc => ?_⟩
  · simp only [Memory.write]
    split
    · exact Memory.rising_erase _ _ h.1
    · exact Memory.rising_insert _ _ _ h.1
  · rcases Memory.mem_write hc with ⟨rfl, hb⟩ | hc
    · simp [hb]
    · exact h.2 c hc

/-- Writing a run of bytes keeps it too. -/
theorem wf_writeFrom (fill : Fill) (bs : List Byte) (a : Nat) (m : Memory) (h : Memory.wf fill m = true) :
    Memory.wf fill (writeFrom fill bs a m) = true := by
  induction bs generalizing a with
  | nil => exact h
  | cons b bs ih => exact Memory.wf_write _ _ _ _ (ih _)

/-- The buffer after reset is in canonical form. -/
theorem reset_rxBuf_wf : Memory.wf State.reset.rxBufFill State.reset.rxBuf = true := rfl

/-- So is the buffer after init. -/
theorem runInit_rxBuf_wf (c : Cfg) (s : State) : Memory.wf (runInit c s).rxBufFill (runInit c s).rxBuf = true := rfl

/-! ### The bytes of the buffer -/

@[simp] theorem reset_bufByte (a : Nat) : bufByte State.reset a = 0 := rfl

/-- After init every byte is a free value. -/
@[simp] theorem runInit_bufByte (c : Cfg) (s : State) (a : Nat) :
    bufByte (runInit c s) a = Config.freeRxByte s.draws a := rfl

/-- A payload byte goes to `RX_COUNT` (R127). -/
@[simp] theorem storePayloadByte_bufByte (b : Byte) (s : State) (a : Nat) :
    bufByte (storePayloadByte b s) a = if a = s.rxCount then b else bufByte s a :=
  Memory.read_write ..

/-- Only the list and what the other bytes hold decide what a byte is. -/
theorem bufByte_congr {s t : State} (hb : t.rxBuf = s.rxBuf) (hf : t.rxBufFill = s.rxBufFill) (a : Nat) :
    bufByte t a = bufByte s a := by simp [bufByte, hb, hf]

/-- What reading `n` bytes from an address gives, where the buffer reaches that far. -/
theorem readBufFrom_eq (s : State) (n a : Nat) (h : n = 0 ∨ a + n ≤ s.cfg.rxBufSize) :
    readBufFrom s a n = .ok ((List.range n).map fun k => bufByte s (a + k)) := by
  induction n generalizing a with
  | zero => rfl
  | succ n ih =>
    have hlt : a < s.cfg.rxBufSize := by omega
    simp only [readBufFrom, readBuf, hlt, if_true, ih (a + 1) (by omega)]
    simp [List.range_succ_eq_map, Function.comp_def, Nat.add_comm, Nat.add_left_comm]

/-- The payload of a frame that fits the buffer: its first `RX_LEN` bytes (R63). -/
theorem rxPayload_eq (s : State) (h : s.rxLen ≤ s.cfg.rxBufSize) :
    rxPayload s = .ok ((List.range s.rxLen).map (bufByte s)) := by
  simpa [rxPayload] using readBufFrom_eq s s.rxLen 0 (.inr (by omega))

end Sys2Proof.Machine
end

