-- ==== Sys2Proof/Laws/Ops.lean ====
section
/-! SUPPORT. For each shared check of Machine/Ops.lean, once: what it answers where it lets the instruction through, and
everything it can do where it answers a next state. -/

namespace Sys2Proof.Machine

@[simp] theorem finish_next (r : Option Result) (s t : State) :
    finish r s = .next t ↔ t = { s with result := r } := by
  simp [finish, eq_comm]

@[simp] theorem raise_next (f : EngineFault) (s t : State) :
    raise f s = .next t ↔ t = { s with fault := some f } := by
  simp [raise, eq_comm]

theorem unlessFaulted_pass {s : State} (h : s.fault = none) (k : Outcome) : unlessFaulted s k = k := by
  simp [unlessFaulted, h]

theorem whenAccepting_pass {s : State} (h : Accepting s) (k : Outcome) : whenAccepting s k = k := by
  simp [whenAccepting, unlessFaulted, h.1, h.2]

theorem whenIdle_pass {s : State} (h : Ready s) (k : Outcome) : whenIdle s k = k := by
  simp [whenIdle, whenAccepting_pass h.1, h.2]

theorem whenIdle_inWindow {s : State} (h : InWindow s) (k : Outcome) :
    whenIdle s k = raise .reentrant s := by
  simp [whenIdle, whenAccepting_pass h.1, h.2]

theorem unlessFaulted_next {s t : State} {k : Outcome} (h : unlessFaulted s k = .next t) :
    s.fault = none ∧ k = .next t := by
  cases hf : s.fault <;> simp [unlessFaulted, hf] at h
  exact ⟨rfl, h⟩

theorem whenAccepting_next {s t : State} {k : Outcome} (h : whenAccepting s k = .next t) :
    Accepting s ∧ k = .next t := by
  obtain ⟨hf, h⟩ := unlessFaulted_next h
  split at h
  · exact ⟨⟨hf, ‹_›⟩, h⟩
  · cases h

/-- Everything a stimulus with the checks of `receive_byte` can do, if it answers a next state (R223). -/
theorem whenIdle_next {s t : State} {k : Outcome} (h : whenIdle s k = .next t) :
    (Ready s ∧ k = .next t) ∨ (InWindow s ∧ t = { s with fault := some .reentrant }) := by
  obtain ⟨ha, h⟩ := whenAccepting_next h
  split at h
  · exact .inl ⟨⟨ha, ‹_›⟩, h⟩
  · refine .inr ⟨⟨ha, ?_⟩, by simpa using h⟩
    cases hc : s.ctx <;> simp_all

theorem withPayload_ok {s : State} {p : List Byte} (h : rxPayload s = .ok p) (k : List Byte → Outcome) :
    withPayload s k = k p := by
  simp [withPayload, h]

theorem withPayload_next {s t : State} {k : List Byte → Outcome} (h : withPayload s k = .next t) :
    ∃ p, rxPayload s = .ok p ∧ k p = .next t := by
  cases hp : rxPayload s <;> simp [withPayload, hp] at h
  exact ⟨_, rfl, h⟩

/-- Only the payload's length, the buffer and its size decide what a payload read gives. -/
theorem rxPayload_congr {s t : State} (hl : t.rxLen = s.rxLen) (hb : t.rxBuf = s.rxBuf)
    (hf : t.rxBufFill = s.rxBufFill) (hc : t.cfg = s.cfg) : rxPayload t = rxPayload s := by
  have key : ∀ n a, readBufFrom t a n = readBufFrom s a n := by
    intro n
    induction n with
    | zero => intro a; rfl
    | succ n ih => intro a; simp only [readBufFrom, readBuf, bufByte, hb, hf, hc, ih]
  simp only [rxPayload, hl, key]

/-- The return from a callback, by its two cases (R202). -/
theorem closeWindow_eq (s : State) :
    closeWindow s = { s with
      ctx := .idle
      trace := s.trace ++ if s.rxKind = .sync ∧ s.rxUserAcked = false
        then wires (encodeFrame s.crcUpdate .ack s.rxSeq []) else [] } := by
  unfold closeWindow autoAckDue
  by_cases h : s.rxKind = .sync ∧ s.rxUserAcked = false
  · simp [h, sendFrame, emitFrame, wires]
  · have : ((s.rxKind == .sync) && !s.rxUserAcked) = false := by
      cases hk : s.rxKind <;> cases hu : s.rxUserAcked <;> simp_all
    simp [h, this]

end Sys2Proof.Machine
end

