-- ==== Sys2Proof/Laws/Crc.lean ====
section
/-! SUPPORT. The bits of two joined bytes, and the CRC update as a shift of the low byte and a term that depends on the high
byte and the data byte alone (spec/40_crc.md R110). -/

namespace Sys2Proof.Machine

/-- A bit of two joined bytes. -/
theorem getLsbD_join (hi lo : Byte) (i : Nat) :
    (hi ++ lo : BitVec 16).getLsbD i = if i < 8 then lo.getLsbD i else hi.getLsbD (i - 8) :=
  @BitVec.getLsbD_append 8 8 i hi lo

/-- The two bytes of a CRC, joined again, are the CRC (R66). -/
theorem receivedCrc_bytes (c : Crc) : receivedCrc (c.extractLsb' 8 8) (c.extractLsb' 0 8) = c := by
  apply BitVec.eq_of_getLsbD_eq
  intro i hi
  rw [receivedCrc, getLsbD_join]
  interval_cases i <;> simp

/-- The part of the update that depends on the high byte of the CRC and the data byte: their xor. -/
def crcFold (x : Byte) : Crc :=
  let x := x ^^^ (x >>> 4)
  let c : Crc := x.setWidth 16
  let c := c ^^^ (c <<< 12)
  c ^^^ ((c.extractLsb' 0 8).setWidth 16 <<< 5)

/-- The update, by its two parts. -/
theorem crc16Update_eq (c : Crc) (b : Byte) :
    crc16Update c b = ((c.extractLsb' 0 8).setWidth 16 <<< 8) ^^^ crcFold (c.extractLsb' 8 8 ^^^ b) := by
  have swap : ∀ i (hi : i < 16), (c.extractLsb' 0 8 ++ c.extractLsb' 8 8 : BitVec 16)[i] =
      if i < 8 then c.getLsbD (8 + i) else c.getLsbD (i - 8) := by
    intro i hi
    have := getLsbD_join (c.extractLsb' 0 8) (c.extractLsb' 8 8) i
    rw [BitVec.getLsbD_eq_getElem hi] at this
    rw [this]
    split
    · simp [*]
    · simp [show i - 8 < 8 by omega]
  apply BitVec.eq_of_getLsbD_eq
  intro i hi
  interval_cases i <;> simp [crc16Update, crcFold, swap]

end Sys2Proof.Machine
end

