-- ==== Sys2Proof/Laws/Timer.lean ====
section
/-! SUPPORT. The multiplexer, field by field (spec/42_timer_mux.md R150 to R156), and the two facts every later proof
needs of it: the mirror after a reschedule, and that elapsed times telescope. -/

namespace Sys2Proof.Machine

@[simp] theorem timer_accrue_en (t : Nat) (tm : Timer) : (tm.accrue t).en = tm.en := rfl
@[simp] theorem timer_accrue_rem (t : Nat) (tm : Timer) : (tm.accrue t).rem = tm.rem - (t - tm.last) := rfl
@[simp] theorem timer_accrue_last (t : Nat) (tm : Timer) : (tm.accrue t).last = t := rfl

/-- Two accruals in time order are one (R158). -/
theorem timer_accrue_accrue (tm : Timer) {t u : Nat} (h1 : tm.last ≤ t) (h2 : t ≤ u) :
    (tm.accrue t).accrue u = tm.accrue u := by
  have : tm.rem - (t - tm.last) - (u - t) = tm.rem - (u - tm.last) := by omega
  simp [Timer.accrue, this]

@[simp] theorem muxSet_rx_tmrRx (d t : Nat) (s : State) :
    (muxSet .rx d t s).tmrRx = { en := true, rem := d, last := t } := by
  simp [muxSet, timer, Timer.accrue]
@[simp] theorem muxSet_rx_tmrAck (d t : Nat) (s : State) :
    (muxSet .rx d t s).tmrAck = s.tmrAck.accrue t := by simp [muxSet]
@[simp] theorem muxSet_ack_tmrAck (d t : Nat) (s : State) :
    (muxSet .ack d t s).tmrAck = { en := true, rem := d, last := t } := by
  simp [muxSet, timer, Timer.accrue]
@[simp] theorem muxSet_ack_tmrRx (d t : Nat) (s : State) :
    (muxSet .ack d t s).tmrRx = s.tmrRx.accrue t := by simp [muxSet]
@[simp] theorem muxCancel_rx_tmrRx (t : Nat) (s : State) :
    (muxCancel .rx t s).tmrRx = { s.tmrRx.accrue t with en := false } := by simp [muxCancel, timer]
@[simp] theorem muxCancel_rx_tmrAck (t : Nat) (s : State) :
    (muxCancel .rx t s).tmrAck = s.tmrAck.accrue t := by simp [muxCancel]
@[simp] theorem muxCancel_ack_tmrAck (t : Nat) (s : State) :
    (muxCancel .ack t s).tmrAck = { s.tmrAck.accrue t with en := false } := by simp [muxCancel, timer]
@[simp] theorem muxCancel_ack_tmrRx (t : Nat) (s : State) :
    (muxCancel .ack t s).tmrRx = s.tmrRx.accrue t := by simp [muxCancel]

theorem soonest_congr {s t : State} (hr : t.tmrRx = s.tmrRx) (ha : t.tmrAck = s.tmrAck) :
    soonest t = soonest s := by simp [soonest, hr, ha]

theorem muxSet_trace (T : TimerId) (d t : Nat) (s : State) :
    (muxSet T d t s).trace = s.trace ++ [deadlineEvent (soonest (muxSet T d t s))] := by
  cases T <;> simp [muxSet, soonest]

theorem muxSet_prim (T : TimerId) (d t : Nat) (s : State) :
    (muxSet T d t s).prim = deadlinePrim t (soonest (muxSet T d t s)) := by
  cases T <;> simp [muxSet, soonest]

theorem muxCancel_trace (T : TimerId) (t : Nat) (s : State) :
    (muxCancel T t s).trace = s.trace ++ [deadlineEvent (soonest (muxCancel T t s))] := by
  cases T <;> simp [muxCancel, soonest]

theorem muxCancel_prim (T : TimerId) (t : Nat) (s : State) :
    (muxCancel T t s).prim = deadlinePrim t (soonest (muxCancel T t s)) := by
  cases T <;> simp [muxCancel, soonest]

/-- A reschedule at the instant of the last update leaves the mirror as R54 asks. -/
theorem primMirrors_of_reschedule {t : Nat} {s : State} (hr : s.tmrRx.last = t) (ha : s.tmrAck.last = t)
    (hp : s.prim = deadlinePrim t (soonest s)) : PrimMirrors s := by
  cases h1 : s.tmrRx.en <;> cases h2 : s.tmrAck.en <;>
    simp [PrimMirrors, hp, soonest, deadlinePrim, h1, h2, hr, ha]

theorem muxSet_primMirrors (T : TimerId) (d t : Nat) (s : State) : PrimMirrors (muxSet T d t s) :=
  primMirrors_of_reschedule (t := t) (by cases T <;> simp) (by cases T <;> simp) (muxSet_prim ..)

theorem muxCancel_primMirrors (T : TimerId) (t : Nat) (s : State) : PrimMirrors (muxCancel T t s) :=
  primMirrors_of_reschedule (t := t) (by cases T <;> simp) (by cases T <;> simp) (muxCancel_prim ..)

/-- The mirror depends only on the timers and `PRIM`. -/
theorem primMirrors_congr {s t : State} (hr : t.tmrRx = s.tmrRx) (ha : t.tmrAck = s.tmrAck)
    (hp : t.prim = s.prim) (h : PrimMirrors s) : PrimMirrors t := by
  simpa only [PrimMirrors, hr, ha, hp] using h

end Sys2Proof.Machine
end

