-- ==== Sys2Proof/Laws/Effect.lean ====
section
/-! SUPPORT. Everything an instruction can do, said once: the branches of the shared operations, of the parser and of
`exec`, each with the conditions under which it is taken. Proofs about every instruction go by cases on these and never
unfold a meaning. -/

namespace Sys2Proof.Machine

/-! ### The shared operations -/

/-- The three cases of `ack_timeout_trigger` (R178). -/
theorem ackTimeoutTrigger_cases (t : Nat) (s : State) :
    (s.awaitingAck = false ∧ ackTimeoutTrigger t s = s) ∨
    (s.awaitingAck = true ∧ s.cfg.maxRetries < s.retryCount + 1 ∧
      ackTimeoutTrigger t s = abandon { s with retryCount := s.retryCount + 1 }) ∨
    (s.awaitingAck = true ∧ s.retryCount + 1 ≤ s.cfg.maxRetries ∧
      ackTimeoutTrigger t s = retransmit t { s with retryCount := s.retryCount + 1 }) := by
  cases ha : s.awaitingAck
  · simp [ackTimeoutTrigger, ha]
  · by_cases h : s.cfg.maxRetries < s.retryCount + 1
    · simp [ackTimeoutTrigger, ha, retrySpent, h]
    · simp [ackTimeoutTrigger, ha, retrySpent, h, Nat.le_of_not_lt h]

theorem matchesOutstanding_iff (seq : Seq) (s : State) :
    matchesOutstanding seq s = true ↔ s.awaitingAck = true ∧ seq = s.txSeq := by
  simp [matchesOutstanding]

theorem transientCode_iff (c : Byte) : transientCode c = true ↔ c = 1 ∨ c = 4 := by
  simp [transientCode, codeNotPreamble, codeNotReady]

/-- The two cases of `ack_received` (R181). -/
theorem ackReceived_cases (seq : Seq) (p : List Byte) (t : Nat) (s : State) :
    (¬ (s.awaitingAck = true ∧ seq = s.txSeq) ∧ ackReceived seq p t s = s) ∨
    (s.awaitingAck = true ∧ seq = s.txSeq ∧
      ackReceived seq p t s = emit (.ackRx seq p) (settle (muxCancel .ack t s))) := by
  by_cases h : s.awaitingAck = true ∧ seq = s.txSeq
  · have := (matchesOutstanding_iff seq s).2 h
    exact .inr ⟨h.1, h.2, by simp [ackReceived, this]⟩
  · have : matchesOutstanding seq s = false := by
      simpa using fun hm => h ((matchesOutstanding_iff seq s).1 hm)
    exact .inl ⟨h, by simp [ackReceived, this]⟩

/-- The cases of a received NACK, with a code or without: nothing, but a draw for an empty payload, or the ack timer
cancelled and the retry trigger (R182). -/
theorem nackReceived_cases (seq : Seq) (p : List Byte) (t : Nat) (s : State) :
    ∃ d, (nackReceived seq p t s = { s with draws := d }) ∨
      (s.awaitingAck = true ∧ seq = s.txSeq ∧
        nackReceived seq p t s = ackTimeoutTrigger t (muxCancel .ack t { s with draws := d })) := by
  have byCode : ∀ (c : Byte) (u : State), nackByCode c t u = u ∨
      nackByCode c t u = ackTimeoutTrigger t (muxCancel .ack t u) := by
    intro c u; cases h : transientCode c <;> simp [nackByCode, h]
  by_cases h : matchesOutstanding seq s = true
  · obtain ⟨ha, hq⟩ := (matchesOutstanding_iff seq s).1 h
    cases p with
    | nil =>
      refine ⟨s.draws + 1, ?_⟩
      rcases byCode (Config.drawByte s.draws) { s with draws := s.draws + 1 } with e | e <;>
        simp only [nackReceived, emptyNackReceived, h, if_true, e] <;> simp [ha, hq]
    | cons c p =>
      refine ⟨s.draws, ?_⟩
      rcases byCode c s with e | e <;>
        simp only [nackReceived, nackCodeReceived, h, if_true, e] <;> simp [ha, hq]
  · exact ⟨s.draws, .inl (by cases p <;> simp [nackReceived, nackCodeReceived, emptyNackReceived, h])⟩

/-- A NACK with a given code is one with that payload. -/
theorem nackCodeReceived_eq (seq : Seq) (c : Byte) (t : Nat) (s : State) :
    nackCodeReceived seq c t s = nackReceived seq [c] t s := rfl

/-- The header fields of a frame already parsed are latched again without effect: with no length byte the length and the
count are zero (R125). -/
theorem latchHeader_self (s : State) (h : s.rxLc = 0 → s.rxLen = 0 ∧ s.rxCount = 0) :
    latchHeader s.rxKind s.rxSeq s.rxLc s = s := by
  cases s; simp_all [latchHeader]

/-- The handlers of a tick: the receive timer's, then the ack timer's (R156). -/
theorem runTick_eq (t : Nat) (s : State) : ∃ u, runTick t s = reschedule t u ∧
    (u = disarmFired (accrue t s) ∨ u = rxTimeoutHandler (disarmFired (accrue t s)) ∨
     u = ackTimeoutTrigger t (disarmFired (accrue t s)) ∨
     u = ackTimeoutTrigger t (rxTimeoutHandler (disarmFired (accrue t s)))) := by
  refine ⟨_, rfl, ?_⟩
  simp only [runHandlers]
  split <;> split <;> simp

/-! ### The parser -/

/-- What one received byte can do (R120 to R130). -/
inductive Parsed (b : Byte) (t : Nat) (s : State) : State → Prop where
  | preamble : s.rxState = .expectPreamble ∨ s.rxState = .notPreamble → b = preambleByte →
      Parsed b t s (acceptPreamble t s)
  | garbageNack : s.rxState = .notPreamble → b = preambleByte → s.cfg.nackGarbage = true →
      Parsed b t s (acceptPreamble t (sendNack codeNotPreamble 0 s))
  | garbage : s.rxState = .expectPreamble ∨ s.rxState = .notPreamble → b ≠ preambleByte →
      Parsed b t s (forwardNonprotocol b { s with rxState := .notPreamble })
  | header : s.rxState = .expectHeaderHigh → Parsed b t s (inExpectHeaderHigh b s)
  | length : s.rxState = .expectHeaderLow → Parsed b t s (inExpectHeaderLow b s)
  | payload : s.rxState = .receivingData → s.rxCount < s.cfg.rxBufSize →
      Parsed b t s (storePayloadByte b s)
  | crcHigh : s.rxState = .expectCrcHigh → Parsed b t s (inExpectCrcHigh b s)
  | badCrc : s.rxState = .expectCrcLow → receivedCrc s.rxCrcHi b ≠ s.rxCrc →
      Parsed b t s (sendNack codeBadCrc s.rxSeq (endFrame t s))
  | frame : s.rxState = .expectCrcLow → receivedCrc s.rxCrcHi b = s.rxCrc →
      ∀ p, rxPayload (endFrame t s) = .ok p → Parsed b t s (deliver p t (endFrame t s))

theorem parseByte_next {b : Byte} {t : Nat} {s u : State} (h : parseByte b t s = .next u) :
    ∃ v, Parsed b t s v ∧ u = { v with result := none } := by
  cases hs : s.rxState <;> simp only [parseByte, hs, finish_next] at h
  · by_cases hb : b = preambleByte
    · rw [inExpectPreamble, if_pos hb] at h
      exact ⟨_, .preamble (.inl hs) hb, h⟩
    · rw [inExpectPreamble, if_neg hb] at h
      exact ⟨_, .garbage (.inl hs) hb, h⟩
  · by_cases hb : b = preambleByte
    · rw [inNotPreamble, if_pos hb, preambleAfterGarbage] at h
      by_cases hg : s.cfg.nackGarbage = true
      · rw [if_pos hg] at h
        exact ⟨_, .garbageNack hs hb hg, h⟩
      · rw [if_neg hg] at h
        exact ⟨_, .preamble (.inr hs) hb, h⟩
    · rw [inNotPreamble, if_neg hb] at h
      have same : { s with rxState := .notPreamble } = s := by cases s; simp_all
      exact ⟨_, .garbage (.inr hs) hb, by rw [same]; exact h⟩
  · exact ⟨_, .header hs, h⟩
  · exact ⟨_, .length hs, h⟩
  · rw [inReceivingData] at h
    split at h
    · exact ⟨_, .payload hs ‹_›, by simpa using h⟩
    · cases h
  · exact ⟨_, .crcHigh hs, h⟩
  · rw [inExpectCrcLow] at h
    split at h
    · obtain ⟨p, hp, h⟩ := withPayload_next h
      exact ⟨_, .frame hs ‹_› p hp, by simpa using h⟩
    · exact ⟨_, .badCrc hs ‹_›, by simpa using h⟩

/-- The PREAMBLE row is the received byte 0x5A (R94, R104). -/
theorem execPreamble_eq (t : Nat) (s : State) : execPreamble t s = execReceiveByte preambleByte t s := by
  simp only [execPreamble, execReceiveByte]
  congr 1
  cases h : s.rxState <;> simp only [parseByte, h]
  · rw [inExpectPreamble, if_pos rfl]
  · rw [inNotPreamble, if_pos rfl]

/-! ### Every instruction -/

/-- What an instruction can do besides refusing, faulting or recording a fault; `result` is set afterwards. -/
inductive Action : Instr → State → State → Prop where
  | byte {s u} (b t) : Ready s → Parsed b t s u → Action (.receiveByte b t) s u
  | preambleRow {s u} (t) : Ready s → Parsed preambleByte t s u → Action (.preamble t) s u
  | tick {s} (t) : Ready s → Action (.tick t) s (runTick t s)
  | busy {s} (p t) : Ready s → s.awaitingAck = true → Action (.transmit true p t) s s
  | sendSync {s} (p t) : Ready s → s.awaitingAck = false → p.length ≤ maxPayload →
      Action (.transmit true p t) s (sendSync p t s)
  | sendUnsync {s} (p t) : Ready s → p.length ≤ maxPayload → Action (.transmit false p t) s (sendUnsync p s)
  | invalidState {s} (p) : Ready s → Action (.replyAck p) s s
  | reply {s} (p) : InWindow s → p.length ≤ maxPayload → Action (.replyAck p) s (sendReply p s)
  | cbReturn {s} : InWindow s → Action .cbReturn s (closeWindow s)
  | init {s} (c) : s.fault = none → maxPayload ≤ c.rxBufSize → Action (.init c) s (runInit c s)
  | openUnsync {s} (q l p) : Ready s → rxPayload (latchHeader .unsync q l s) = .ok p →
      Action (.hdrUnsync q l) s (openWindow .unsync q p (latchHeader .unsync q l s))
  | openSync {s} (q l p) : Ready s → rxPayload (latchHeader .sync q l s) = .ok p →
      Action (.hdrSync q l) s (openWindow .sync q p (latchHeader .sync q l s))
  | ack {s} (q l t p) : Ready s → rxPayload (latchHeader .ack q l s) = .ok p →
      Action (.hdrAck q l t) s (ackReceived q p t (latchHeader .ack q l s))
  | nack {s} (q l t p) : Ready s → rxPayload (latchHeader .nack q l s) = .ok p →
      Action (.hdrNack q l t) s (nackReceived q p t (latchHeader .nack q l s))
  | nackCode {s} (i c t) : Ready s →
      i = .nackNotPreamble t ∨ i = .nackBadCrc t ∨ i = .nackRxTimeout t ∨ i = .nackNotReady t ∨
        i = .nackOther c t →
      Action i s (nackReceived s.rxSeq [c] t s)

theorem inWindow_of_ne {s : State} (h : Accepting s) (hc : s.ctx ≠ .idle) : InWindow s := by
  refine ⟨h, ?_⟩
  cases hs : s.ctx <;> simp_all

theorem ready_of_ne {s : State} (h : Accepting s) (hc : s.ctx ≠ .inRxCallback) : Ready s := by
  refine ⟨h, ?_⟩
  cases hs : s.ctx <;> simp_all

/-- Everything an instruction can do, if it answers a next state: it records a fault and changes nothing else, or it takes
one of its actions. -/
theorem exec_next {i : Instr} {s t : State} (h : exec i s = .next t) :
    (∃ f, t = { s with fault := some f }) ∨ ∃ u r, Action i s u ∧ t = { u with result := r } := by
  have nackCase : ∀ (i : Instr) (c : Byte) (n : Nat),
      i = .nackNotPreamble n ∨ i = .nackBadCrc n ∨ i = .nackRxTimeout n ∨ i = .nackNotReady n ∨
        i = .nackOther c n → execNackCode c n s = .next t →
      (∃ f, t = { s with fault := some f }) ∨ ∃ u r, Action i s u ∧ t = { u with result := r } := by
    intro i c n hi h
    rcases whenIdle_next h with ⟨hr, h⟩ | ⟨-, h⟩
    · exact .inr ⟨_, _, .nackCode i c n hr hi, (finish_next ..).1 h⟩
    · exact .inl ⟨_, h⟩
  cases i with
  | receiveByte b n =>
    rcases whenIdle_next h with ⟨hr, h⟩ | ⟨-, h⟩
    · obtain ⟨v, hv, rfl⟩ := parseByte_next h
      exact .inr ⟨v, none, .byte b n hr hv, rfl⟩
    · exact .inl ⟨_, h⟩
  | preamble n =>
    rw [exec, execPreamble_eq] at h
    rcases whenIdle_next h with ⟨hr, h⟩ | ⟨-, h⟩
    · obtain ⟨v, hv, rfl⟩ := parseByte_next h
      exact .inr ⟨v, none, .preambleRow n hr hv, rfl⟩
    · exact .inl ⟨_, h⟩
  | tick n =>
    rcases whenIdle_next h with ⟨hr, h⟩ | ⟨-, h⟩
    · exact .inr ⟨_, _, .tick n hr, by simpa using h⟩
    · exact .inl ⟨_, h⟩
  | transmit ra p n =>
    rcases whenIdle_next h with ⟨hr, h⟩ | ⟨-, h⟩
    · split at h
      · exact .inl ⟨_, by simpa using h⟩
      · rename_i hp
        have hp := Nat.le_of_not_lt hp
        cases ra <;> cases ha : s.awaitingAck <;> simp only [txBusy, ha, Bool.and_self, Bool.false_and,
          Bool.and_false, if_true, Bool.false_eq_true, if_false, finish_next] at h
        · exact .inr ⟨_, _, .sendUnsync p n hr hp, h⟩
        · exact .inr ⟨_, _, .sendUnsync p n hr hp, h⟩
        · exact .inr ⟨_, _, .sendSync p n hr ha hp, h⟩
        · exact .inr ⟨_, _, .busy p n hr ha, by simpa only [ha] using h⟩
    · exact .inl ⟨_, h⟩
  | replyAck p =>
    obtain ⟨ha, h⟩ := whenAccepting_next h
    split at h
    · split at h
      · exact .inl ⟨_, by simpa using h⟩
      · exact .inr ⟨_, _, .reply p ⟨ha, ‹_›⟩ (Nat.le_of_not_lt ‹_›), by simpa using h⟩
    · exact .inr ⟨_, _, .invalidState p (ready_of_ne ha ‹_›), by simpa using h⟩
  | cbReturn =>
    obtain ⟨ha, h⟩ := whenAccepting_next h
    split at h
    · exact .inr ⟨_, _, .cbReturn ⟨ha, ‹_›⟩, by simpa using h⟩
    · exact .inl ⟨_, by simpa using h⟩
  | init c =>
    obtain ⟨hf, h⟩ := unlessFaulted_next h
    split at h
    · exact .inl ⟨_, by simpa using h⟩
    · exact .inr ⟨_, _, .init c hf (Nat.le_of_not_lt ‹_›), by simpa using h⟩
  | reserved110 => cases h
  | reserved111 => cases h
  | hdrUnsync q l =>
    rcases whenIdle_next h with ⟨hr, h⟩ | ⟨-, h⟩
    · obtain ⟨p, hp, h⟩ := withPayload_next h
      exact .inr ⟨_, _, .openUnsync q l p hr hp, by simpa using h⟩
    · exact .inl ⟨_, h⟩
  | hdrSync q l =>
    rcases whenIdle_next h with ⟨hr, h⟩ | ⟨-, h⟩
    · obtain ⟨p, hp, h⟩ := withPayload_next h
      exact .inr ⟨_, _, .openSync q l p hr hp, by simpa using h⟩
    · exact .inl ⟨_, h⟩
  | hdrAck q l n =>
    rcases whenIdle_next h with ⟨hr, h⟩ | ⟨-, h⟩
    · obtain ⟨p, hp, h⟩ := withPayload_next h
      exact .inr ⟨_, _, .ack q l n p hr hp, by simpa using h⟩
    · exact .inl ⟨_, h⟩
  | hdrNack q l n =>
    rcases whenIdle_next h with ⟨hr, h⟩ | ⟨-, h⟩
    · obtain ⟨p, hp, h⟩ := withPayload_next h
      exact .inr ⟨_, _, .nack q l n p hr hp, by simpa using h⟩
    · exact .inl ⟨_, h⟩
  | nackNotPreamble n => exact nackCase _ codeNotPreamble n (by simp) h
  | nackBadCrc n => exact nackCase _ codeBadCrc n (by simp) h
  | nackRxTimeout n => exact nackCase _ codeRxTimeout n (by simp) h
  | nackNotReady n => exact nackCase _ codeNotReady n (by simp) h
  | nackOther c n => exact nackCase _ c n (by simp) h

end Sys2Proof.Machine
end

