-- ==== Sys2Proof/Laws/Frames.lean ====
section
/-! SUPPORT. For every operation that branches, the fields it leaves alone on every branch. -/

namespace Sys2Proof.Machine

variable (s : State)

/-! ### `ackTimeoutTrigger` -/

@[simp] theorem ackTimeoutTrigger_cfg (t : Nat) : (ackTimeoutTrigger t s).cfg = s.cfg := by
  rcases ackTimeoutTrigger_cases t s with ⟨-, e⟩ | ⟨-, -, e⟩ | ⟨-, -, e⟩ <;> simp [e]
@[simp] theorem ackTimeoutTrigger_crcUpdate (t : Nat) : (ackTimeoutTrigger t s).crcUpdate = s.crcUpdate := by
  rcases ackTimeoutTrigger_cases t s with ⟨-, e⟩ | ⟨-, -, e⟩ | ⟨-, -, e⟩ <;> simp [e]
@[simp] theorem ackTimeoutTrigger_inited (t : Nat) : (ackTimeoutTrigger t s).inited = s.inited := by
  rcases ackTimeoutTrigger_cases t s with ⟨-, e⟩ | ⟨-, -, e⟩ | ⟨-, -, e⟩ <;> simp [e]
@[simp] theorem ackTimeoutTrigger_rxState (t : Nat) : (ackTimeoutTrigger t s).rxState = s.rxState := by
  rcases ackTimeoutTrigger_cases t s with ⟨-, e⟩ | ⟨-, -, e⟩ | ⟨-, -, e⟩ <;> simp [e]
@[simp] theorem ackTimeoutTrigger_rxKind (t : Nat) : (ackTimeoutTrigger t s).rxKind = s.rxKind := by
  rcases ackTimeoutTrigger_cases t s with ⟨-, e⟩ | ⟨-, -, e⟩ | ⟨-, -, e⟩ <;> simp [e]
@[simp] theorem ackTimeoutTrigger_rxSeq (t : Nat) : (ackTimeoutTrigger t s).rxSeq = s.rxSeq := by
  rcases ackTimeoutTrigger_cases t s with ⟨-, e⟩ | ⟨-, -, e⟩ | ⟨-, -, e⟩ <;> simp [e]
@[simp] theorem ackTimeoutTrigger_rxLc (t : Nat) : (ackTimeoutTrigger t s).rxLc = s.rxLc := by
  rcases ackTimeoutTrigger_cases t s with ⟨-, e⟩ | ⟨-, -, e⟩ | ⟨-, -, e⟩ <;> simp [e]
@[simp] theorem ackTimeoutTrigger_rxLen (t : Nat) : (ackTimeoutTrigger t s).rxLen = s.rxLen := by
  rcases ackTimeoutTrigger_cases t s with ⟨-, e⟩ | ⟨-, -, e⟩ | ⟨-, -, e⟩ <;> simp [e]
@[simp] theorem ackTimeoutTrigger_rxCount (t : Nat) : (ackTimeoutTrigger t s).rxCount = s.rxCount := by
  rcases ackTimeoutTrigger_cases t s with ⟨-, e⟩ | ⟨-, -, e⟩ | ⟨-, -, e⟩ <;> simp [e]
@[simp] theorem ackTimeoutTrigger_rxCrc (t : Nat) : (ackTimeoutTrigger t s).rxCrc = s.rxCrc := by
  rcases ackTimeoutTrigger_cases t s with ⟨-, e⟩ | ⟨-, -, e⟩ | ⟨-, -, e⟩ <;> simp [e]
@[simp] theorem ackTimeoutTrigger_rxCrcHi (t : Nat) : (ackTimeoutTrigger t s).rxCrcHi = s.rxCrcHi := by
  rcases ackTimeoutTrigger_cases t s with ⟨-, e⟩ | ⟨-, -, e⟩ | ⟨-, -, e⟩ <;> simp [e]
@[simp] theorem ackTimeoutTrigger_rxBuf (t : Nat) : (ackTimeoutTrigger t s).rxBuf = s.rxBuf := by
  rcases ackTimeoutTrigger_cases t s with ⟨-, e⟩ | ⟨-, -, e⟩ | ⟨-, -, e⟩ <;> simp [e]
@[simp] theorem ackTimeoutTrigger_rxBufFill (t : Nat) : (ackTimeoutTrigger t s).rxBufFill = s.rxBufFill := by
  rcases ackTimeoutTrigger_cases t s with ⟨-, e⟩ | ⟨-, -, e⟩ | ⟨-, -, e⟩ <;> simp [e]
@[simp] theorem ackTimeoutTrigger_txValid (t : Nat) : (ackTimeoutTrigger t s).txValid = s.txValid := by
  rcases ackTimeoutTrigger_cases t s with ⟨-, e⟩ | ⟨-, -, e⟩ | ⟨-, -, e⟩ <;> simp [e]
@[simp] theorem ackTimeoutTrigger_txSeq (t : Nat) : (ackTimeoutTrigger t s).txSeq = s.txSeq := by
  rcases ackTimeoutTrigger_cases t s with ⟨-, e⟩ | ⟨-, -, e⟩ | ⟨-, -, e⟩ <;> simp [e]
@[simp] theorem ackTimeoutTrigger_txPayload (t : Nat) : (ackTimeoutTrigger t s).txPayload = s.txPayload := by
  rcases ackTimeoutTrigger_cases t s with ⟨-, e⟩ | ⟨-, -, e⟩ | ⟨-, -, e⟩ <;> simp [e]
@[simp] theorem ackTimeoutTrigger_txFrame (t : Nat) : (ackTimeoutTrigger t s).txFrame = s.txFrame := by
  rcases ackTimeoutTrigger_cases t s with ⟨-, e⟩ | ⟨-, -, e⟩ | ⟨-, -, e⟩ <;> simp [e]
@[simp] theorem ackTimeoutTrigger_ctx (t : Nat) : (ackTimeoutTrigger t s).ctx = s.ctx := by
  rcases ackTimeoutTrigger_cases t s with ⟨-, e⟩ | ⟨-, -, e⟩ | ⟨-, -, e⟩ <;> simp [e]
@[simp] theorem ackTimeoutTrigger_rxUserAcked (t : Nat) : (ackTimeoutTrigger t s).rxUserAcked = s.rxUserAcked := by
  rcases ackTimeoutTrigger_cases t s with ⟨-, e⟩ | ⟨-, -, e⟩ | ⟨-, -, e⟩ <;> simp [e]
@[simp] theorem ackTimeoutTrigger_fault (t : Nat) : (ackTimeoutTrigger t s).fault = s.fault := by
  rcases ackTimeoutTrigger_cases t s with ⟨-, e⟩ | ⟨-, -, e⟩ | ⟨-, -, e⟩ <;> simp [e]
@[simp] theorem ackTimeoutTrigger_result (t : Nat) : (ackTimeoutTrigger t s).result = s.result := by
  rcases ackTimeoutTrigger_cases t s with ⟨-, e⟩ | ⟨-, -, e⟩ | ⟨-, -, e⟩ <;> simp [e]
@[simp] theorem ackTimeoutTrigger_pending (t : Nat) : (ackTimeoutTrigger t s).pending = s.pending := by
  rcases ackTimeoutTrigger_cases t s with ⟨-, e⟩ | ⟨-, -, e⟩ | ⟨-, -, e⟩ <;> simp [e]
@[simp] theorem ackTimeoutTrigger_draws (t : Nat) : (ackTimeoutTrigger t s).draws = s.draws := by
  rcases ackTimeoutTrigger_cases t s with ⟨-, e⟩ | ⟨-, -, e⟩ | ⟨-, -, e⟩ <;> simp [e]

/-! ### `ackReceived` -/

@[simp] theorem ackReceived_cfg (q : Seq) (p : List Byte) (t : Nat) : (ackReceived q p t s).cfg = s.cfg := by
  rcases ackReceived_cases q p t s with ⟨-, e⟩ | ⟨-, -, e⟩ <;> simp [e]
@[simp] theorem ackReceived_crcUpdate (q : Seq) (p : List Byte) (t : Nat) : (ackReceived q p t s).crcUpdate = s.crcUpdate := by
  rcases ackReceived_cases q p t s with ⟨-, e⟩ | ⟨-, -, e⟩ <;> simp [e]
@[simp] theorem ackReceived_inited (q : Seq) (p : List Byte) (t : Nat) : (ackReceived q p t s).inited = s.inited := by
  rcases ackReceived_cases q p t s with ⟨-, e⟩ | ⟨-, -, e⟩ <;> simp [e]
@[simp] theorem ackReceived_rxState (q : Seq) (p : List Byte) (t : Nat) : (ackReceived q p t s).rxState = s.rxState := by
  rcases ackReceived_cases q p t s with ⟨-, e⟩ | ⟨-, -, e⟩ <;> simp [e]
@[simp] theorem ackReceived_rxKind (q : Seq) (p : List Byte) (t : Nat) : (ackReceived q p t s).rxKind = s.rxKind := by
  rcases ackReceived_cases q p t s with ⟨-, e⟩ | ⟨-, -, e⟩ <;> simp [e]
@[simp] theorem ackReceived_rxSeq (q : Seq) (p : List Byte) (t : Nat) : (ackReceived q p t s).rxSeq = s.rxSeq := by
  rcases ackReceived_cases q p t s with ⟨-, e⟩ | ⟨-, -, e⟩ <;> simp [e]
@[simp] theorem ackReceived_rxLc (q : Seq) (p : List Byte) (t : Nat) : (ackReceived q p t s).rxLc = s.rxLc := by
  rcases ackReceived_cases q p t s with ⟨-, e⟩ | ⟨-, -, e⟩ <;> simp [e]
@[simp] theorem ackReceived_rxLen (q : Seq) (p : List Byte) (t : Nat) : (ackReceived q p t s).rxLen = s.rxLen := by
  rcases ackReceived_cases q p t s with ⟨-, e⟩ | ⟨-, -, e⟩ <;> simp [e]
@[simp] theorem ackReceived_rxCount (q : Seq) (p : List Byte) (t : Nat) : (ackReceived q p t s).rxCount = s.rxCount := by
  rcases ackReceived_cases q p t s with ⟨-, e⟩ | ⟨-, -, e⟩ <;> simp [e]
@[simp] theorem ackReceived_rxCrc (q : Seq) (p : List Byte) (t : Nat) : (ackReceived q p t s).rxCrc = s.rxCrc := by
  rcases ackReceived_cases q p t s with ⟨-, e⟩ | ⟨-, -, e⟩ <;> simp [e]
@[simp] theorem ackReceived_rxCrcHi (q : Seq) (p : List Byte) (t : Nat) : (ackReceived q p t s).rxCrcHi = s.rxCrcHi := by
  rcases ackReceived_cases q p t s with ⟨-, e⟩ | ⟨-, -, e⟩ <;> simp [e]
@[simp] theorem ackReceived_rxBuf (q : Seq) (p : List Byte) (t : Nat) : (ackReceived q p t s).rxBuf = s.rxBuf := by
  rcases ackReceived_cases q p t s with ⟨-, e⟩ | ⟨-, -, e⟩ <;> simp [e]
@[simp] theorem ackReceived_rxBufFill (q : Seq) (p : List Byte) (t : Nat) : (ackReceived q p t s).rxBufFill = s.rxBufFill := by
  rcases ackReceived_cases q p t s with ⟨-, e⟩ | ⟨-, -, e⟩ <;> simp [e]
@[simp] theorem ackReceived_txValid (q : Seq) (p : List Byte) (t : Nat) : (ackReceived q p t s).txValid = s.txValid := by
  rcases ackReceived_cases q p t s with ⟨-, e⟩ | ⟨-, -, e⟩ <;> simp [e]
@[simp] theorem ackReceived_txSeq (q : Seq) (p : List Byte) (t : Nat) : (ackReceived q p t s).txSeq = s.txSeq := by
  rcases ackReceived_cases q p t s with ⟨-, e⟩ | ⟨-, -, e⟩ <;> simp [e]
@[simp] theorem ackReceived_txPayload (q : Seq) (p : List Byte) (t : Nat) : (ackReceived q p t s).txPayload = s.txPayload := by
  rcases ackReceived_cases q p t s with ⟨-, e⟩ | ⟨-, -, e⟩ <;> simp [e]
@[simp] theorem ackReceived_txFrame (q : Seq) (p : List Byte) (t : Nat) : (ackReceived q p t s).txFrame = s.txFrame := by
  rcases ackReceived_cases q p t s with ⟨-, e⟩ | ⟨-, -, e⟩ <;> simp [e]
@[simp] theorem ackReceived_retryCount (q : Seq) (p : List Byte) (t : Nat) : (ackReceived q p t s).retryCount = s.retryCount := by
  rcases ackReceived_cases q p t s with ⟨-, e⟩ | ⟨-, -, e⟩ <;> simp [e]
@[simp] theorem ackReceived_ctx (q : Seq) (p : List Byte) (t : Nat) : (ackReceived q p t s).ctx = s.ctx := by
  rcases ackReceived_cases q p t s with ⟨-, e⟩ | ⟨-, -, e⟩ <;> simp [e]
@[simp] theorem ackReceived_rxUserAcked (q : Seq) (p : List Byte) (t : Nat) : (ackReceived q p t s).rxUserAcked = s.rxUserAcked := by
  rcases ackReceived_cases q p t s with ⟨-, e⟩ | ⟨-, -, e⟩ <;> simp [e]
@[simp] theorem ackReceived_fault (q : Seq) (p : List Byte) (t : Nat) : (ackReceived q p t s).fault = s.fault := by
  rcases ackReceived_cases q p t s with ⟨-, e⟩ | ⟨-, -, e⟩ <;> simp [e]
@[simp] theorem ackReceived_result (q : Seq) (p : List Byte) (t : Nat) : (ackReceived q p t s).result = s.result := by
  rcases ackReceived_cases q p t s with ⟨-, e⟩ | ⟨-, -, e⟩ <;> simp [e]
@[simp] theorem ackReceived_pending (q : Seq) (p : List Byte) (t : Nat) : (ackReceived q p t s).pending = s.pending := by
  rcases ackReceived_cases q p t s with ⟨-, e⟩ | ⟨-, -, e⟩ <;> simp [e]
@[simp] theorem ackReceived_draws (q : Seq) (p : List Byte) (t : Nat) : (ackReceived q p t s).draws = s.draws := by
  rcases ackReceived_cases q p t s with ⟨-, e⟩ | ⟨-, -, e⟩ <;> simp [e]

/-! ### `nackReceived` -/

@[simp] theorem nackReceived_cfg (q : Seq) (p : List Byte) (t : Nat) : (nackReceived q p t s).cfg = s.cfg := by
  obtain ⟨d, e | ⟨-, -, e⟩⟩ := nackReceived_cases q p t s <;> simp [e]
@[simp] theorem nackReceived_crcUpdate (q : Seq) (p : List Byte) (t : Nat) : (nackReceived q p t s).crcUpdate = s.crcUpdate := by
  obtain ⟨d, e | ⟨-, -, e⟩⟩ := nackReceived_cases q p t s <;> simp [e]
@[simp] theorem nackReceived_inited (q : Seq) (p : List Byte) (t : Nat) : (nackReceived q p t s).inited = s.inited := by
  obtain ⟨d, e | ⟨-, -, e⟩⟩ := nackReceived_cases q p t s <;> simp [e]
@[simp] theorem nackReceived_rxState (q : Seq) (p : List Byte) (t : Nat) : (nackReceived q p t s).rxState = s.rxState := by
  obtain ⟨d, e | ⟨-, -, e⟩⟩ := nackReceived_cases q p t s <;> simp [e]
@[simp] theorem nackReceived_rxKind (q : Seq) (p : List Byte) (t : Nat) : (nackReceived q p t s).rxKind = s.rxKind := by
  obtain ⟨d, e | ⟨-, -, e⟩⟩ := nackReceived_cases q p t s <;> simp [e]
@[simp] theorem nackReceived_rxSeq (q : Seq) (p : List Byte) (t : Nat) : (nackReceived q p t s).rxSeq = s.rxSeq := by
  obtain ⟨d, e | ⟨-, -, e⟩⟩ := nackReceived_cases q p t s <;> simp [e]
@[simp] theorem nackReceived_rxLc (q : Seq) (p : List Byte) (t : Nat) : (nackReceived q p t s).rxLc = s.rxLc := by
  obtain ⟨d, e | ⟨-, -, e⟩⟩ := nackReceived_cases q p t s <;> simp [e]
@[simp] theorem nackReceived_rxLen (q : Seq) (p : List Byte) (t : Nat) : (nackReceived q p t s).rxLen = s.rxLen := by
  obtain ⟨d, e | ⟨-, -, e⟩⟩ := nackReceived_cases q p t s <;> simp [e]
@[simp] theorem nackReceived_rxCount (q : Seq) (p : List Byte) (t : Nat) : (nackReceived q p t s).rxCount = s.rxCount := by
  obtain ⟨d, e | ⟨-, -, e⟩⟩ := nackReceived_cases q p t s <;> simp [e]
@[simp] theorem nackReceived_rxCrc (q : Seq) (p : List Byte) (t : Nat) : (nackReceived q p t s).rxCrc = s.rxCrc := by
  obtain ⟨d, e | ⟨-, -, e⟩⟩ := nackReceived_cases q p t s <;> simp [e]
@[simp] theorem nackReceived_rxCrcHi (q : Seq) (p : List Byte) (t : Nat) : (nackReceived q p t s).rxCrcHi = s.rxCrcHi := by
  obtain ⟨d, e | ⟨-, -, e⟩⟩ := nackReceived_cases q p t s <;> simp [e]
@[simp] theorem nackReceived_rxBuf (q : Seq) (p : List Byte) (t : Nat) : (nackReceived q p t s).rxBuf = s.rxBuf := by
  obtain ⟨d, e | ⟨-, -, e⟩⟩ := nackReceived_cases q p t s <;> simp [e]
@[simp] theorem nackReceived_rxBufFill (q : Seq) (p : List Byte) (t : Nat) : (nackReceived q p t s).rxBufFill = s.rxBufFill := by
  obtain ⟨d, e | ⟨-, -, e⟩⟩ := nackReceived_cases q p t s <;> simp [e]
@[simp] theorem nackReceived_txValid (q : Seq) (p : List Byte) (t : Nat) : (nackReceived q p t s).txValid = s.txValid := by
  obtain ⟨d, e | ⟨-, -, e⟩⟩ := nackReceived_cases q p t s <;> simp [e]
@[simp] theorem nackReceived_txSeq (q : Seq) (p : List Byte) (t : Nat) : (nackReceived q p t s).txSeq = s.txSeq := by
  obtain ⟨d, e | ⟨-, -, e⟩⟩ := nackReceived_cases q p t s <;> simp [e]
@[simp] theorem nackReceived_txPayload (q : Seq) (p : List Byte) (t : Nat) : (nackReceived q p t s).txPayload = s.txPayload := by
  obtain ⟨d, e | ⟨-, -, e⟩⟩ := nackReceived_cases q p t s <;> simp [e]
@[simp] theorem nackReceived_txFrame (q : Seq) (p : List Byte) (t : Nat) : (nackReceived q p t s).txFrame = s.txFrame := by
  obtain ⟨d, e | ⟨-, -, e⟩⟩ := nackReceived_cases q p t s <;> simp [e]
@[simp] theorem nackReceived_ctx (q : Seq) (p : List Byte) (t : Nat) : (nackReceived q p t s).ctx = s.ctx := by
  obtain ⟨d, e | ⟨-, -, e⟩⟩ := nackReceived_cases q p t s <;> simp [e]
@[simp] theorem nackReceived_rxUserAcked (q : Seq) (p : List Byte) (t : Nat) : (nackReceived q p t s).rxUserAcked = s.rxUserAcked := by
  obtain ⟨d, e | ⟨-, -, e⟩⟩ := nackReceived_cases q p t s <;> simp [e]
@[simp] theorem nackReceived_fault (q : Seq) (p : List Byte) (t : Nat) : (nackReceived q p t s).fault = s.fault := by
  obtain ⟨d, e | ⟨-, -, e⟩⟩ := nackReceived_cases q p t s <;> simp [e]
@[simp] theorem nackReceived_result (q : Seq) (p : List Byte) (t : Nat) : (nackReceived q p t s).result = s.result := by
  obtain ⟨d, e | ⟨-, -, e⟩⟩ := nackReceived_cases q p t s <;> simp [e]
@[simp] theorem nackReceived_pending (q : Seq) (p : List Byte) (t : Nat) : (nackReceived q p t s).pending = s.pending := by
  obtain ⟨d, e | ⟨-, -, e⟩⟩ := nackReceived_cases q p t s <;> simp [e]

/-! ### `forwardNonprotocol` -/

@[simp] theorem forwardNonprotocol_cfg (b : Byte) : (forwardNonprotocol b s).cfg = s.cfg := by
  cases h : s.cfg.hasNonprotocolCb <;> simp [forwardNonprotocol, h]
@[simp] theorem forwardNonprotocol_crcUpdate (b : Byte) : (forwardNonprotocol b s).crcUpdate = s.crcUpdate := by
  cases h : s.cfg.hasNonprotocolCb <;> simp [forwardNonprotocol, h]
@[simp] theorem forwardNonprotocol_inited (b : Byte) : (forwardNonprotocol b s).inited = s.inited := by
  cases h : s.cfg.hasNonprotocolCb <;> simp [forwardNonprotocol, h]
@[simp] theorem forwardNonprotocol_rxState (b : Byte) : (forwardNonprotocol b s).rxState = s.rxState := by
  cases h : s.cfg.hasNonprotocolCb <;> simp [forwardNonprotocol, h]
@[simp] theorem forwardNonprotocol_rxKind (b : Byte) : (forwardNonprotocol b s).rxKind = s.rxKind := by
  cases h : s.cfg.hasNonprotocolCb <;> simp [forwardNonprotocol, h]
@[simp] theorem forwardNonprotocol_rxSeq (b : Byte) : (forwardNonprotocol b s).rxSeq = s.rxSeq := by
  cases h : s.cfg.hasNonprotocolCb <;> simp [forwardNonprotocol, h]
@[simp] theorem forwardNonprotocol_rxLc (b : Byte) : (forwardNonprotocol b s).rxLc = s.rxLc := by
  cases h : s.cfg.hasNonprotocolCb <;> simp [forwardNonprotocol, h]
@[simp] theorem forwardNonprotocol_rxLen (b : Byte) : (forwardNonprotocol b s).rxLen = s.rxLen := by
  cases h : s.cfg.hasNonprotocolCb <;> simp [forwardNonprotocol, h]
@[simp] theorem forwardNonprotocol_rxCount (b : Byte) : (forwardNonprotocol b s).rxCount = s.rxCount := by
  cases h : s.cfg.hasNonprotocolCb <;> simp [forwardNonprotocol, h]
@[simp] theorem forwardNonprotocol_rxCrc (b : Byte) : (forwardNonprotocol b s).rxCrc = s.rxCrc := by
  cases h : s.cfg.hasNonprotocolCb <;> simp [forwardNonprotocol, h]
@[simp] theorem forwardNonprotocol_rxCrcHi (b : Byte) : (forwardNonprotocol b s).rxCrcHi = s.rxCrcHi := by
  cases h : s.cfg.hasNonprotocolCb <;> simp [forwardNonprotocol, h]
@[simp] theorem forwardNonprotocol_rxBuf (b : Byte) : (forwardNonprotocol b s).rxBuf = s.rxBuf := by
  cases h : s.cfg.hasNonprotocolCb <;> simp [forwardNonprotocol, h]
@[simp] theorem forwardNonprotocol_rxBufFill (b : Byte) : (forwardNonprotocol b s).rxBufFill = s.rxBufFill := by
  cases h : s.cfg.hasNonprotocolCb <;> simp [forwardNonprotocol, h]
@[simp] theorem forwardNonprotocol_txValid (b : Byte) : (forwardNonprotocol b s).txValid = s.txValid := by
  cases h : s.cfg.hasNonprotocolCb <;> simp [forwardNonprotocol, h]
@[simp] theorem forwardNonprotocol_txSeq (b : Byte) : (forwardNonprotocol b s).txSeq = s.txSeq := by
  cases h : s.cfg.hasNonprotocolCb <;> simp [forwardNonprotocol, h]
@[simp] theorem forwardNonprotocol_txPayload (b : Byte) : (forwardNonprotocol b s).txPayload = s.txPayload := by
  cases h : s.cfg.hasNonprotocolCb <;> simp [forwardNonprotocol, h]
@[simp] theorem forwardNonprotocol_txFrame (b : Byte) : (forwardNonprotocol b s).txFrame = s.txFrame := by
  cases h : s.cfg.hasNonprotocolCb <;> simp [forwardNonprotocol, h]
@[simp] theorem forwardNonprotocol_txSequence (b : Byte) : (forwardNonprotocol b s).txSequence = s.txSequence := by
  cases h : s.cfg.hasNonprotocolCb <;> simp [forwardNonprotocol, h]
@[simp] theorem forwardNonprotocol_awaitingAck (b : Byte) : (forwardNonprotocol b s).awaitingAck = s.awaitingAck := by
  cases h : s.cfg.hasNonprotocolCb <;> simp [forwardNonprotocol, h]
@[simp] theorem forwardNonprotocol_retryCount (b : Byte) : (forwardNonprotocol b s).retryCount = s.retryCount := by
  cases h : s.cfg.hasNonprotocolCb <;> simp [forwardNonprotocol, h]
@[simp] theorem forwardNonprotocol_tmrRx (b : Byte) : (forwardNonprotocol b s).tmrRx = s.tmrRx := by
  cases h : s.cfg.hasNonprotocolCb <;> simp [forwardNonprotocol, h]
@[simp] theorem forwardNonprotocol_tmrAck (b : Byte) : (forwardNonprotocol b s).tmrAck = s.tmrAck := by
  cases h : s.cfg.hasNonprotocolCb <;> simp [forwardNonprotocol, h]
@[simp] theorem forwardNonprotocol_ctx (b : Byte) : (forwardNonprotocol b s).ctx = s.ctx := by
  cases h : s.cfg.hasNonprotocolCb <;> simp [forwardNonprotocol, h]
@[simp] theorem forwardNonprotocol_rxUserAcked (b : Byte) : (forwardNonprotocol b s).rxUserAcked = s.rxUserAcked := by
  cases h : s.cfg.hasNonprotocolCb <;> simp [forwardNonprotocol, h]
@[simp] theorem forwardNonprotocol_fault (b : Byte) : (forwardNonprotocol b s).fault = s.fault := by
  cases h : s.cfg.hasNonprotocolCb <;> simp [forwardNonprotocol, h]
@[simp] theorem forwardNonprotocol_prim (b : Byte) : (forwardNonprotocol b s).prim = s.prim := by
  cases h : s.cfg.hasNonprotocolCb <;> simp [forwardNonprotocol, h]
@[simp] theorem forwardNonprotocol_result (b : Byte) : (forwardNonprotocol b s).result = s.result := by
  cases h : s.cfg.hasNonprotocolCb <;> simp [forwardNonprotocol, h]
@[simp] theorem forwardNonprotocol_pending (b : Byte) : (forwardNonprotocol b s).pending = s.pending := by
  cases h : s.cfg.hasNonprotocolCb <;> simp [forwardNonprotocol, h]
@[simp] theorem forwardNonprotocol_draws (b : Byte) : (forwardNonprotocol b s).draws = s.draws := by
  cases h : s.cfg.hasNonprotocolCb <;> simp [forwardNonprotocol, h]

/-! ### `deliver` -/

@[simp] theorem deliver_cfg (p : List Byte) (t : Nat) : (deliver p t s).cfg = s.cfg := by
  cases h : s.rxKind <;> simp [deliver, h]
@[simp] theorem deliver_crcUpdate (p : List Byte) (t : Nat) : (deliver p t s).crcUpdate = s.crcUpdate := by
  cases h : s.rxKind <;> simp [deliver, h]
@[simp] theorem deliver_inited (p : List Byte) (t : Nat) : (deliver p t s).inited = s.inited := by
  cases h : s.rxKind <;> simp [deliver, h]
@[simp] theorem deliver_rxState (p : List Byte) (t : Nat) : (deliver p t s).rxState = s.rxState := by
  cases h : s.rxKind <;> simp [deliver, h]
@[simp] theorem deliver_rxKind (p : List Byte) (t : Nat) : (deliver p t s).rxKind = s.rxKind := by
  cases h : s.rxKind <;> simp [deliver, h]
@[simp] theorem deliver_rxSeq (p : List Byte) (t : Nat) : (deliver p t s).rxSeq = s.rxSeq := by
  cases h : s.rxKind <;> simp [deliver, h]
@[simp] theorem deliver_rxLc (p : List Byte) (t : Nat) : (deliver p t s).rxLc = s.rxLc := by
  cases h : s.rxKind <;> simp [deliver, h]
@[simp] theorem deliver_rxLen (p : List Byte) (t : Nat) : (deliver p t s).rxLen = s.rxLen := by
  cases h : s.rxKind <;> simp [deliver, h]
@[simp] theorem deliver_rxCount (p : List Byte) (t : Nat) : (deliver p t s).rxCount = s.rxCount := by
  cases h : s.rxKind <;> simp [deliver, h]
@[simp] theorem deliver_rxCrc (p : List Byte) (t : Nat) : (deliver p t s).rxCrc = s.rxCrc := by
  cases h : s.rxKind <;> simp [deliver, h]
@[simp] theorem deliver_rxCrcHi (p : List Byte) (t : Nat) : (deliver p t s).rxCrcHi = s.rxCrcHi := by
  cases h : s.rxKind <;> simp [deliver, h]
@[simp] theorem deliver_rxBuf (p : List Byte) (t : Nat) : (deliver p t s).rxBuf = s.rxBuf := by
  cases h : s.rxKind <;> simp [deliver, h]
@[simp] theorem deliver_rxBufFill (p : List Byte) (t : Nat) : (deliver p t s).rxBufFill = s.rxBufFill := by
  cases h : s.rxKind <;> simp [deliver, h]
@[simp] theorem deliver_txValid (p : List Byte) (t : Nat) : (deliver p t s).txValid = s.txValid := by
  cases h : s.rxKind <;> simp [deliver, h]
@[simp] theorem deliver_txSeq (p : List Byte) (t : Nat) : (deliver p t s).txSeq = s.txSeq := by
  cases h : s.rxKind <;> simp [deliver, h]
@[simp] theorem deliver_txPayload (p : List Byte) (t : Nat) : (deliver p t s).txPayload = s.txPayload := by
  cases h : s.rxKind <;> simp [deliver, h]
@[simp] theorem deliver_txFrame (p : List Byte) (t : Nat) : (deliver p t s).txFrame = s.txFrame := by
  cases h : s.rxKind <;> simp [deliver, h]
@[simp] theorem deliver_fault (p : List Byte) (t : Nat) : (deliver p t s).fault = s.fault := by
  cases h : s.rxKind <;> simp [deliver, h]
@[simp] theorem deliver_result (p : List Byte) (t : Nat) : (deliver p t s).result = s.result := by
  cases h : s.rxKind <;> simp [deliver, h]
@[simp] theorem deliver_pending (p : List Byte) (t : Nat) : (deliver p t s).pending = s.pending := by
  cases h : s.rxKind <;> simp [deliver, h]

/-! ### `runTick` -/

@[simp] theorem runTick_cfg (t : Nat) : (runTick t s).cfg = s.cfg := by
  obtain ⟨u, e, h⟩ := runTick_eq t s; rcases h with rfl | rfl | rfl | rfl <;> simp [e]
@[simp] theorem runTick_crcUpdate (t : Nat) : (runTick t s).crcUpdate = s.crcUpdate := by
  obtain ⟨u, e, h⟩ := runTick_eq t s; rcases h with rfl | rfl | rfl | rfl <;> simp [e]
@[simp] theorem runTick_inited (t : Nat) : (runTick t s).inited = s.inited := by
  obtain ⟨u, e, h⟩ := runTick_eq t s; rcases h with rfl | rfl | rfl | rfl <;> simp [e]
@[simp] theorem runTick_rxKind (t : Nat) : (runTick t s).rxKind = s.rxKind := by
  obtain ⟨u, e, h⟩ := runTick_eq t s; rcases h with rfl | rfl | rfl | rfl <;> simp [e]
@[simp] theorem runTick_rxSeq (t : Nat) : (runTick t s).rxSeq = s.rxSeq := by
  obtain ⟨u, e, h⟩ := runTick_eq t s; rcases h with rfl | rfl | rfl | rfl <;> simp [e]
@[simp] theorem runTick_rxLc (t : Nat) : (runTick t s).rxLc = s.rxLc := by
  obtain ⟨u, e, h⟩ := runTick_eq t s; rcases h with rfl | rfl | rfl | rfl <;> simp [e]
@[simp] theorem runTick_rxLen (t : Nat) : (runTick t s).rxLen = s.rxLen := by
  obtain ⟨u, e, h⟩ := runTick_eq t s; rcases h with rfl | rfl | rfl | rfl <;> simp [e]
@[simp] theorem runTick_rxCount (t : Nat) : (runTick t s).rxCount = s.rxCount := by
  obtain ⟨u, e, h⟩ := runTick_eq t s; rcases h with rfl | rfl | rfl | rfl <;> simp [e]
@[simp] theorem runTick_rxCrc (t : Nat) : (runTick t s).rxCrc = s.rxCrc := by
  obtain ⟨u, e, h⟩ := runTick_eq t s; rcases h with rfl | rfl | rfl | rfl <;> simp [e]
@[simp] theorem runTick_rxCrcHi (t : Nat) : (runTick t s).rxCrcHi = s.rxCrcHi := by
  obtain ⟨u, e, h⟩ := runTick_eq t s; rcases h with rfl | rfl | rfl | rfl <;> simp [e]
@[simp] theorem runTick_rxBuf (t : Nat) : (runTick t s).rxBuf = s.rxBuf := by
  obtain ⟨u, e, h⟩ := runTick_eq t s; rcases h with rfl | rfl | rfl | rfl <;> simp [e]
@[simp] theorem runTick_rxBufFill (t : Nat) : (runTick t s).rxBufFill = s.rxBufFill := by
  obtain ⟨u, e, h⟩ := runTick_eq t s; rcases h with rfl | rfl | rfl | rfl <;> simp [e]
@[simp] theorem runTick_txValid (t : Nat) : (runTick t s).txValid = s.txValid := by
  obtain ⟨u, e, h⟩ := runTick_eq t s; rcases h with rfl | rfl | rfl | rfl <;> simp [e]
@[simp] theorem runTick_txSeq (t : Nat) : (runTick t s).txSeq = s.txSeq := by
  obtain ⟨u, e, h⟩ := runTick_eq t s; rcases h with rfl | rfl | rfl | rfl <;> simp [e]
@[simp] theorem runTick_txPayload (t : Nat) : (runTick t s).txPayload = s.txPayload := by
  obtain ⟨u, e, h⟩ := runTick_eq t s; rcases h with rfl | rfl | rfl | rfl <;> simp [e]
@[simp] theorem runTick_txFrame (t : Nat) : (runTick t s).txFrame = s.txFrame := by
  obtain ⟨u, e, h⟩ := runTick_eq t s; rcases h with rfl | rfl | rfl | rfl <;> simp [e]
@[simp] theorem runTick_ctx (t : Nat) : (runTick t s).ctx = s.ctx := by
  obtain ⟨u, e, h⟩ := runTick_eq t s; rcases h with rfl | rfl | rfl | rfl <;> simp [e]
@[simp] theorem runTick_rxUserAcked (t : Nat) : (runTick t s).rxUserAcked = s.rxUserAcked := by
  obtain ⟨u, e, h⟩ := runTick_eq t s; rcases h with rfl | rfl | rfl | rfl <;> simp [e]
@[simp] theorem runTick_fault (t : Nat) : (runTick t s).fault = s.fault := by
  obtain ⟨u, e, h⟩ := runTick_eq t s; rcases h with rfl | rfl | rfl | rfl <;> simp [e]
@[simp] theorem runTick_result (t : Nat) : (runTick t s).result = s.result := by
  obtain ⟨u, e, h⟩ := runTick_eq t s; rcases h with rfl | rfl | rfl | rfl <;> simp [e]
@[simp] theorem runTick_pending (t : Nat) : (runTick t s).pending = s.pending := by
  obtain ⟨u, e, h⟩ := runTick_eq t s; rcases h with rfl | rfl | rfl | rfl <;> simp [e]
@[simp] theorem runTick_draws (t : Nat) : (runTick t s).draws = s.draws := by
  obtain ⟨u, e, h⟩ := runTick_eq t s; rcases h with rfl | rfl | rfl | rfl <;> simp [e]

/-! ### `closeWindow` -/

@[simp] theorem closeWindow_cfg : (closeWindow s).cfg = s.cfg := by
  simp [closeWindow_eq]
@[simp] theorem closeWindow_crcUpdate : (closeWindow s).crcUpdate = s.crcUpdate := by
  simp [closeWindow_eq]
@[simp] theorem closeWindow_inited : (closeWindow s).inited = s.inited := by
  simp [closeWindow_eq]
@[simp] theorem closeWindow_rxState : (closeWindow s).rxState = s.rxState := by
  simp [closeWindow_eq]
@[simp] theorem closeWindow_rxKind : (closeWindow s).rxKind = s.rxKind := by
  simp [closeWindow_eq]
@[simp] theorem closeWindow_rxSeq : (closeWindow s).rxSeq = s.rxSeq := by
  simp [closeWindow_eq]
@[simp] theorem closeWindow_rxLc : (closeWindow s).rxLc = s.rxLc := by
  simp [closeWindow_eq]
@[simp] theorem closeWindow_rxLen : (closeWindow s).rxLen = s.rxLen := by
  simp [closeWindow_eq]
@[simp] theorem closeWindow_rxCount : (closeWindow s).rxCount = s.rxCount := by
  simp [closeWindow_eq]
@[simp] theorem closeWindow_rxCrc : (closeWindow s).rxCrc = s.rxCrc := by
  simp [closeWindow_eq]
@[simp] theorem closeWindow_rxCrcHi : (closeWindow s).rxCrcHi = s.rxCrcHi := by
  simp [closeWindow_eq]
@[simp] theorem closeWindow_rxBuf : (closeWindow s).rxBuf = s.rxBuf := by
  simp [closeWindow_eq]
@[simp] theorem closeWindow_rxBufFill : (closeWindow s).rxBufFill = s.rxBufFill := by
  simp [closeWindow_eq]
@[simp] theorem closeWindow_txValid : (closeWindow s).txValid = s.txValid := by
  simp [closeWindow_eq]
@[simp] theorem closeWindow_txSeq : (closeWindow s).txSeq = s.txSeq := by
  simp [closeWindow_eq]
@[simp] theorem closeWindow_txPayload : (closeWindow s).txPayload = s.txPayload := by
  simp [closeWindow_eq]
@[simp] theorem closeWindow_txFrame : (closeWindow s).txFrame = s.txFrame := by
  simp [closeWindow_eq]
@[simp] theorem closeWindow_txSequence : (closeWindow s).txSequence = s.txSequence := by
  simp [closeWindow_eq]
@[simp] theorem closeWindow_awaitingAck : (closeWindow s).awaitingAck = s.awaitingAck := by
  simp [closeWindow_eq]
@[simp] theorem closeWindow_retryCount : (closeWindow s).retryCount = s.retryCount := by
  simp [closeWindow_eq]
@[simp] theorem closeWindow_tmrRx : (closeWindow s).tmrRx = s.tmrRx := by
  simp [closeWindow_eq]
@[simp] theorem closeWindow_tmrAck : (closeWindow s).tmrAck = s.tmrAck := by
  simp [closeWindow_eq]
@[simp] theorem closeWindow_rxUserAcked : (closeWindow s).rxUserAcked = s.rxUserAcked := by
  simp [closeWindow_eq]
@[simp] theorem closeWindow_fault : (closeWindow s).fault = s.fault := by
  simp [closeWindow_eq]
@[simp] theorem closeWindow_prim : (closeWindow s).prim = s.prim := by
  simp [closeWindow_eq]
@[simp] theorem closeWindow_result : (closeWindow s).result = s.result := by
  simp [closeWindow_eq]
@[simp] theorem closeWindow_pending : (closeWindow s).pending = s.pending := by
  simp [closeWindow_eq]
@[simp] theorem closeWindow_draws : (closeWindow s).draws = s.draws := by
  simp [closeWindow_eq]

end Sys2Proof.Machine
end

