-- ==== Sys2Proof/Laws/PerInstr.lean ====
section
/-! SUPPORT. A fact of the encoding, per instruction: its word carries the fixed bits that its row of
spec/opcode_table.json gives (match and mask). -/

namespace Sys2Proof.Laws.TableRow

open Sys2Proof

/-- The match of an instruction's row. -/
def rowMatch : Instr → Byte
  | .receiveByte _ _ => 0x00
  | .tick _ => 0x01
  | .transmit _ _ _ => 0x02
  | .replyAck _ => 0x03
  | .cbReturn => 0x04
  | .init _ => 0x05
  | .reserved110 => 0x06
  | .reserved111 => 0x07
  | .preamble _ => 0x5A
  | .hdrUnsync _ _ => 0x00
  | .hdrSync _ _ => 0x40
  | .hdrAck _ _ _ => 0x80
  | .hdrNack _ _ _ => 0xC0
  | .nackNotPreamble _ => 0x01
  | .nackBadCrc _ => 0x02
  | .nackRxTimeout _ => 0x03
  | .nackNotReady _ => 0x04
  | .nackOther _ _ => 0x00

/-- The mask of an instruction's row. -/
def rowMask (i : Instr) : Byte :=
  match formatOf i with
  | .stimulus => 0x07
  | .wireByte => 0xFF
  | .header => 0xC0
  | .nackCode => match i with
    | .nackOther _ _ => 0x00
    | _ => 0xFF

/-- The instruction's word has the bits that its row fixes. -/
def Statement (i : Instr) : Prop := wordOf i &&& rowMask i = rowMatch i

/-- A header byte under the mask of the kind bits is the kind's base value (R97). -/
theorem headerByte_masked (kind : Kind) (seq : Seq) (lc : LenClass) :
    headerByte kind seq lc &&& 0xC0 = headerByte kind 0 0 := by
  revert kind
  refine fun k => ?_
  have key : ∀ (c : BitVec 2) (q : BitVec 4) (l : BitVec 2),
      ((c ++ q ++ l : BitVec 8) &&& 0xC0) = (c ++ (0 : BitVec 4) ++ (0 : BitVec 2) : BitVec 8) := by decide
  exact key _ _ _

theorem receiveByte (b : Byte) (t : Nat) : Statement (.receiveByte b t) :=
  show (0 : Byte) &&& 7 = 0 by decide
theorem tick (t : Nat) : Statement (.tick t) :=
  show (1 : Byte) &&& 7 = 1 by decide
theorem transmit (r : Bool) (p : List Byte) (t : Nat) : Statement (.transmit r p t) :=
  show (2 : Byte) &&& 7 = 2 by decide
theorem replyAck (p : List Byte) : Statement (.replyAck p) :=
  show (3 : Byte) &&& 7 = 3 by decide
theorem cbReturn : Statement .cbReturn :=
  show (4 : Byte) &&& 7 = 4 by decide
theorem init (c : Cfg) : Statement (.init c) :=
  show (5 : Byte) &&& 7 = 5 by decide
theorem reserved110 : Statement .reserved110 :=
  show (6 : Byte) &&& 7 = 6 by decide
theorem reserved111 : Statement .reserved111 :=
  show (7 : Byte) &&& 7 = 7 by decide
theorem preamble (t : Nat) : Statement (.preamble t) :=
  show (0x5A : Byte) &&& 0xFF = 0x5A by decide
theorem hdrUnsync (q : Seq) (l : LenClass) : Statement (.hdrUnsync q l) := headerByte_masked .unsync q l
theorem hdrSync (q : Seq) (l : LenClass) : Statement (.hdrSync q l) := headerByte_masked .sync q l
theorem hdrAck (q : Seq) (l : LenClass) (t : Nat) : Statement (.hdrAck q l t) := headerByte_masked .ack q l
theorem hdrNack (q : Seq) (l : LenClass) (t : Nat) : Statement (.hdrNack q l t) := headerByte_masked .nack q l
theorem nackNotPreamble (t : Nat) : Statement (.nackNotPreamble t) :=
  show (1 : Byte) &&& 0xFF = 1 by decide
theorem nackBadCrc (t : Nat) : Statement (.nackBadCrc t) :=
  show (2 : Byte) &&& 0xFF = 2 by decide
theorem nackRxTimeout (t : Nat) : Statement (.nackRxTimeout t) :=
  show (3 : Byte) &&& 0xFF = 3 by decide
theorem nackNotReady (t : Nat) : Statement (.nackNotReady t) :=
  show (4 : Byte) &&& 0xFF = 4 by decide
theorem nackOther (c : Byte) (t : Nat) : Statement (.nackOther c t) := by
  simp [Statement, rowMask, rowMatch, formatOf]

end Sys2Proof.Laws.TableRow
end

