-- ==== Sys2Proof/Tests/Slice0.lean ====
section
/-! SUPPORT. The model's own tests: what WellFormed refuses, words written out from the spec's encodings, single steps of
the vectors of spec/95_test_vectors.md, and for every statement with hypotheses a state and operands that meet them. -/

namespace Sys2Proof.Tests

open Sys2Proof Sys2Proof.Machine

/-! ### Small states -/

/-- A field of the next state, if there is one. -/
def after {α : Type} (f : State → α) : Machine.Outcome → Option α
  | .next s => some (f s)
  | .fault _ => none
  | .refused _ => none

/-- The state of R55 after `INIT {}`. -/
def idle : State := State.reset

/-- Garbage has come in, and garbage is NACKed. -/
def garbage : State := { idle with rxState := .notPreamble, cfg := { defaultCfg with nackGarbage := true } }

/-- A preamble at time 0. -/
def atHeader : State :=
  { idle with rxState := .expectHeaderHigh, rxCrc := 0xFFFF, prim := .armed 800,
              tmrRx := { en := true, rem := 800, last := 0 } }

/-- The bytes `5A 45` of the vector of section 2.3. -/
def atLength : State :=
  { atHeader with rxState := .expectHeaderLow, rxKind := .sync, rxSeq := 1, rxLc := 1, rxCrc := 0xF991 }

/-- The bytes `5A 45 01 01`. -/
def inPayload : State :=
  { atLength with rxState := .receivingData, rxLen := 2, rxCount := 1, rxCrc := 0x19D1, rxBuf := [(0, 0x01)] }

/-- The bytes `5A 45 01 01 02`. -/
def atCrcHigh : State :=
  { inPayload with rxState := .expectCrcHigh, rxCount := 2, rxCrc := 0x725A, rxBuf := [(0, 0x01), (1, 0x02)] }

/-- The bytes `5A 45 01 01 02 72`. -/
def atCrcLow : State := { atCrcHigh with rxState := .expectCrcLow, rxCrcHi := 0x72 }

/-- A SYNC frame with sequence 1 and payload `01 02` stands in the parser, between frames. -/
def received : State :=
  { atCrcLow with rxState := .expectPreamble, tmrRx := { en := false, rem := 800, last := 0 }, prim := .idle }

/-- The window of that frame. -/
def window : State := { received with ctx := .inRxCallback }

/-- `TX sync [07] @0`. -/
def outstanding : State :=
  { idle with txSeq := 1, txPayload := [0x07], txFrame := [0x5A, 0x45, 0x00, 0x07, 0x4A, 0x26], txValid := true,
              awaitingAck := true, tmrAck := { en := true, rem := 40, last := 0 }, prim := .armed 40 }

/-- A fault has been recorded. -/
def faulted : State := { idle with fault := some .noWindow }

/-- A payload of 769 bytes. -/
def tooLong : List Byte := List.replicate 769 0

/-- A payload of 768 bytes. -/
def longest : List Byte := List.replicate 768 0

theorem tooLong_length : 768 < tooLong.length :=
  Nat.lt_of_lt_of_eq (by decide) (List.length_replicate (n := 769) (a := (0 : Byte))).symm

theorem longest_length : longest.length ≤ 768 := Nat.le_of_eq (List.length_replicate (n := 768) (a := (0 : Byte)))

/-- A configuration with a buffer one byte too small. -/
def smallBuffer : Cfg := { defaultCfg with rxBufSize := 767 }

/-! ### Well-formed instructions: NACK_other has none of the four named codes -/

theorem test_wf_other_refuses_notPreamble : WellFormed (.nackOther 1 0) = false := by decide
theorem test_wf_other_refuses_badCrc : WellFormed (.nackOther 2 0) = false := by decide
theorem test_wf_other_refuses_rxTimeout : WellFormed (.nackOther 3 0) = false := by decide
theorem test_wf_other_refuses_notReady : WellFormed (.nackOther 4 0) = false := by decide
theorem test_wf_other_accepts_0 : WellFormed (.nackOther 0 0) = true := by decide
theorem test_wf_other_accepts_5 : WellFormed (.nackOther 5 0) = true := by decide

/-! ### Decoding: words written out bit by bit from the encodings of spec/30_encoding.md

R99: the command codes 0b000 to 0b111. R80: the preamble is 0b01011010. R81, R82: a header is two bits of type, four of
sequence and two of length-class. R89: the NACK codes. -/

/-- Arguments that differ in every field, so that a swapped operand shows. -/
def args : Operands :=
  { byte := 0xA5, requiresAck := true, payload := [0x11, 0x22], time := 77, config := smallBuffer }

theorem test_decode_receive_byte : decodeStimulus { code := 0b000, ops := args } = .receiveByte 0xA5 77 := by decide
theorem test_decode_tick : decodeStimulus { code := 0b001, ops := args } = .tick 77 := by decide
theorem test_decode_transmit :
    decodeStimulus { code := 0b010, ops := args } = .transmit true [0x11, 0x22] 77 := by decide
theorem test_decode_reply_ack : decodeStimulus { code := 0b011, ops := args } = .replyAck [0x11, 0x22] := by decide
theorem test_decode_cb_return : decodeStimulus { code := 0b100, ops := args } = .cbReturn := by decide
theorem test_decode_init : decodeStimulus { code := 0b101, ops := args } = .init smallBuffer := by decide
theorem test_decode_reserved_110 : decodeStimulus { code := 0b110, ops := args } = .reserved110 := by decide
theorem test_decode_reserved_111 : decodeStimulus { code := 0b111, ops := args } = .reserved111 := by decide
theorem test_decode_command_above_7 :
    decode { format := .stimulus, word := 0b00001000, ops := args } = .error .notACommandCode := by decide

theorem test_decode_preamble :
    decode { format := .wireByte, word := 0b01011010, ops := args } = .ok (.preamble 77) := by decide
theorem test_decode_garbage :
    decode { format := .wireByte, word := 0b01011011, ops := args } = .error .garbageByte := by decide

theorem test_decode_hdr_unsync :
    decode { format := .header, word := 0b00100110, ops := args } = .ok (.hdrUnsync 9 2) := by decide
theorem test_decode_hdr_sync :
    decode { format := .header, word := 0b01000101, ops := args } = .ok (.hdrSync 1 1) := by decide
theorem test_decode_hdr_ack :
    decode { format := .header, word := 0b10111100, ops := args } = .ok (.hdrAck 15 0 77) := by decide
theorem test_decode_hdr_nack :
    decode { format := .header, word := 0b11010111, ops := args } = .ok (.hdrNack 5 3 77) := by decide

theorem test_decode_nack_notPreamble :
    decode { format := .nackCode, word := 0b00000001, ops := args } = .ok (.nackNotPreamble 77) := by decide
theorem test_decode_nack_badCrc :
    decode { format := .nackCode, word := 0b00000010, ops := args } = .ok (.nackBadCrc 77) := by decide
theorem test_decode_nack_rxTimeout :
    decode { format := .nackCode, word := 0b00000011, ops := args } = .ok (.nackRxTimeout 77) := by decide
theorem test_decode_nack_notReady :
    decode { format := .nackCode, word := 0b00000100, ops := args } = .ok (.nackNotReady 77) := by decide
theorem test_decode_nack_other :
    decode { format := .nackCode, word := 0b11111111, ops := args } = .ok (.nackOther 0xFF 77) := by decide
theorem test_decode_nack_other_zero :
    decode { format := .nackCode, word := 0b00000000, ops := args } = .ok (.nackOther 0 77) := by decide

/-- The host's words: the row's instruction runs as the first step after reset. -/
theorem test_fetch_preamble : after State.rxState (step (idle.withFetchWord 8 0x5A)) = some .expectHeaderHigh := by decide
/-- A SYNC header with sequence 1 and length-class 1: the next step ends in its PKTRX. -/
theorem test_fetch_hdr_sync :
    after (fun s => s.trace.getLast?) (step (idle.withFetchWord 8 0x45)) = some (some (.pktRx .sync 1 [0])) := by decide

/-! ### CRC and encoder (95, sections 2.1 and 2.2) -/

theorem test_crc_of_1234_56 : crcOver .reconstructed 0x1234 [0x56] = 0x3C40 := by decide
theorem test_crc_of_80 : crcOver .reconstructed 0x0000 [0x80] = 0x9188 := by decide
theorem test_encode_sync_15 : encodeFrame .reconstructed .sync 15 [0x5A] = [0x5A, 0x7D, 0x00, 0x5A, 0xAD, 0x7A] := by decide
theorem test_encode_ack_15 : encodeFrame .reconstructed .ack 15 [] = [0x5A, 0xBC, 0x87, 0xA7] := by decide
theorem test_length_fields_257 : lengthFields 257 = (2, [0x00]) := by decide
theorem test_length_fields_512 : lengthFields 512 = (2, [0xFF]) := by decide

/-! ### The receive buffer (R61, R62; 95, section 2.3) -/

/-- R127's example: `RX_COUNT = 1`, byte 0x02. -/
theorem test_payload_stored :
    after (fun s => (bufByte s 0, bufByte s 1, s.rxCount)) (exec (.receiveByte 0x02 0) inPayload) =
      some (0x01, 0x02, 2) := by decide
/-- The canonical form after reset: a zero needs no entry, and replaces the one of an earlier frame. -/
theorem test_write_zero : Memory.write .zero [(0, 0x01), (1, 0x02)] 0 0x00 = [(1, 0x02)] := by decide
/-- After an init a zero is an entry: what else the byte could hold is free. -/
theorem test_write_zero_after_init : Memory.write (.drawn 0) [(1, 0x02)] 0 0x00 = [(0, 0x00), (1, 0x02)] := by decide
/-- A SYNC frame with one payload byte, in the buffer that came with an init. -/
theorem test_dispatch_after_init :
    after State.trace (exec (.hdrSync 1 1) { idle with
      rxBufFill := .drawn 0, rxLen := 1, rxBuf := [(0, 0x00)] }) = some [.pktRx .sync 1 [0x00]] := by decide

/-! ### Timer multiplexer (95, section 2.4) -/

theorem test_accrue_clamps :
    ({ en := true, rem := 3, last := 0 } : Timer).accrue 20 = { en := true, rem := 0, last := 20 } := by decide
theorem test_accrue_backwards :
    ({ en := true, rem := 50, last := 10 } : Timer).accrue 4 = { en := true, rem := 50, last := 4 } := by decide

/-! ### Single steps (95, sections 1 to 3) -/

/-- Section 2.3, the byte-by-byte trace: `45` after the preamble. -/
theorem test_receive_header :
    after (fun s => (s.rxState, s.rxCrc, s.rxSeq)) (exec (.receiveByte 0x45 0) atHeader) =
      some (.expectHeaderLow, 0xF991, 1) := by decide
/-- The last byte of that trace: the frame is dispatched. -/
theorem test_receive_last_byte :
    after (fun s => (s.ctx, s.trace)) (exec (.receiveByte 0x5A 0) atCrcLow) =
      some (.inRxCallback, [.cancel, .pktRx .sync 1 [0x01, 0x02]]) := by decide
/-- Section 1.2: `TICK @45`, after `RX 5A @0` with a receive timeout of 100 and `TX sync [07] @5`. -/
theorem test_tick_retransmits :
    after (fun s => (s.tmrRx.rem, s.trace))
      (exec (.tick 45) { outstanding with
        rxState := .expectHeaderHigh, tmrRx := { en := true, rem := 95, last := 5 },
        tmrAck := { en := true, rem := 40, last := 5 } }) =
      some (55, wires [0x5A, 0x45, 0x00, 0x07, 0x4A, 0x26] ++ [.arm 40, .arm 40]) := by decide
/-- Section 2.3: the receive timeout before any header. -/
theorem test_tick_receive_timeout :
    after (fun s => (s.rxState, s.trace)) (exec (.tick 800) atHeader) =
      some (.expectPreamble, wires [0x5A, 0xC1, 0x00, 0x03, 0xED, 0x38] ++ [.cancel]) := by decide
/-- Section 1.1: `TX sync [01 02] @0`. -/
theorem test_transmit_sync :
    after (fun s => (s.result, s.trace)) (exec (.transmit true [0x01, 0x02] 0) idle) =
      some (some .ok, wires [0x5A, 0x45, 0x01, 0x01, 0x02, 0x72, 0x5A] ++ [.arm 40]) := by decide
/-- Section 2.5: an unsynchronized transmit while a packet is outstanding. -/
theorem test_transmit_unsync :
    after (fun s => (s.result, s.trace)) (exec (.transmit false [] 1) outstanding) =
      some (some .ok, wires [0x5A, 0x00, 0xE1, 0xF0]) := by decide
/-- Section 2.2: the ACK with sequence 1 and payload `01 02`. -/
theorem test_reply_ack :
    after (fun s => (s.rxUserAcked, s.trace)) (exec (.replyAck [0x01, 0x02]) window) =
      some (true, wires [0x5A, 0x85, 0x01, 0x01, 0x02, 0xC1, 0xFE]) := by decide
/-- Section 2.3: `RET` after the frame of the trace. -/
theorem test_cb_return_auto_ack :
    after (fun s => (s.ctx, s.trace)) (exec .cbReturn window) = some (.idle, wires [0x5A, 0x84, 0x30, 0xFC]) := by decide
/-- R202: no auto-ACK after an explicit reply. -/
theorem test_cb_return_after_reply :
    after (fun s => (s.ctx, s.trace)) (exec .cbReturn { window with rxUserAcked := true }) = some (.idle, []) := by decide
/-- R250: init forgets an outstanding packet. -/
theorem test_init : after (fun s => (s.awaitingAck, s.txSequence)) (exec (.init defaultCfg) { outstanding with
    txSequence := 7 }) = some (false, 1) := by decide
/-- R251: a buffer of 767 bytes. -/
theorem test_init_small_buffer :
    after State.fault (exec (.init smallBuffer) idle) = some (some .badConfig) := by decide
/-- R100: no next state. -/
theorem test_reserved : after State.fault (exec .reserved110 idle) = none ∧
    after State.fault (exec .reserved111 idle) = none := by decide
/-- Section 2.3: `INIT {NACK_GARBAGE=1}`, a preamble after garbage. -/
theorem test_preamble_after_garbage :
    after State.trace (exec (.preamble 0) garbage) =
      some (wires [0x5A, 0xC1, 0x00, 0x01, 0xCD, 0x7A] ++ [.arm 800]) := by decide
/-- R94: inside a frame 0x5A is data (section 2.3: `5A 5A` is the header SYNC, seq 6, Len 2). -/
theorem test_preamble_as_header :
    after (fun s => (s.rxState, s.rxSeq, s.rxLc)) (exec (.preamble 0) atHeader) = some (.expectHeaderLow, 6, 2) := by decide
/-- R201: an UNSYNC frame opens a window, whatever its sequence. -/
theorem test_hdr_unsync :
    after (fun s => (s.ctx, s.trace)) (exec (.hdrUnsync 9 0) received) = some (.inRxCallback, [.pktRx .unsync 9 []]) := by
  decide
/-- R201: the flag of the last window is cleared. -/
theorem test_hdr_sync :
    after (fun s => (s.rxUserAcked, s.trace)) (exec (.hdrSync 2 1) { received with rxUserAcked := true }) =
      some (false, [.pktRx .sync 2 [0x01, 0x02]]) := by decide
/-- Section 1.1: the ACK of the outstanding packet. -/
theorem test_hdr_ack :
    after (fun s => (s.txSequence, s.trace)) (exec (.hdrAck 1 1 10) { outstanding with
      rxLen := 2, rxBuf := [(0, 0x01), (1, 0x02)] }) = some (2, [.cancel, .ackRx 1 [0x01, 0x02]]) := by decide
/-- Section 2.5: an ACK with another sequence. -/
theorem test_hdr_ack_mismatch :
    after (fun s => (s.awaitingAck, s.trace)) (exec (.hdrAck 2 0 1) outstanding) = some (true, []) := by decide
/-- R182: only byte 0 of the payload is the code. -/
theorem test_hdr_nack_first_byte :
    after (fun s => (s.retryCount, s.trace)) (exec (.hdrNack 1 1 3) { outstanding with
      rxLen := 2, rxBuf := [(0, 0x04), (1, 0x02)] }) = some (0, []) := by decide
/-- R182: transient codes wait for the running timer. -/
theorem test_nack_transient :
    after State.retryCount (exec (.nackNotPreamble 3) { outstanding with rxSeq := 1 }) = some 0 ∧
    after State.retryCount (exec (.nackNotReady 3) { outstanding with rxSeq := 1 }) = some 0 := by decide
/-- R182: the other codes retransmit at once, after the ack timer is cancelled. -/
theorem test_nack_bad_crc :
    after State.trace (exec (.nackBadCrc 2) { outstanding with rxSeq := 1 }) =
      some ([.cancel] ++ wires [0x5A, 0x45, 0x00, 0x07, 0x4A, 0x26] ++ [.arm 40]) := by decide
theorem test_nack_immediate :
    after State.retryCount (exec (.nackRxTimeout 2) { outstanding with rxSeq := 1 }) = some 1 ∧
    after State.retryCount (exec (.nackOther 0 2) { outstanding with rxSeq := 1 }) = some 1 := by decide

/-! ### Witnesses: states and operands that meet the hypotheses of the statements -/

theorem witness_LengthFieldsInvertAssembly :
    (1 ≤ 1 ∧ 1 ≤ 768) ∧ (1 ≤ 768 ∧ 768 ≤ 768) ∧ (1 : LenClass) ≠ 0 ∧ (3 : LenClass) ≠ 0 := by decide
theorem witness_EncodedFrameLayout : ([] : List Byte).length ≤ 768 ∧ longest.length ≤ 768 :=
  ⟨by decide, longest_length⟩
theorem witness_DecodeOfEncodeIsIdentity :
    WellFormed (.nackOther 5 3) = true ∧ WellFormed (.init smallBuffer) = true ∧
    formatOf (.init smallBuffer) = .stimulus := by decide
theorem witness_DecodedWordIsTheInstructionsOwn :
    decode { format := .header, word := 0xFF, ops := args } = .ok (.hdrNack 15 3 77) ∧
    decode { format := .stimulus, word := 7, ops := args } = .ok .reserved111 ∧
    decode { format := .stimulus, word := 8, ops := args } = .error .notACommandCode ∧
    decode { format := .wireByte, word := 0x5A, ops := args } = .ok (.preamble 77) ∧
    decode { format := .wireByte, word := 0x59, ops := args } = .error .garbageByte := by decide
theorem witness_CrcDetectsAChangedByte :
    (0x00 : Byte) ≠ 0x80 ∧ ((0 : Byte), (0 : Byte)) ≠ ((0 : Byte), (1 : Byte)) := by decide
theorem witness_StepRunsTheDeliveredStimulus :
    { idle with pending := [stimulusOf .cbReturn] }.pending = stimulusOf .cbReturn :: [] ∧ idle.pending = [] := by decide
theorem witness_RefusalRules :
    (faulted.fault = some .noWindow ∧ isReserved (.init defaultCfg) = false) ∧
    (State.powerOn.fault = none ∧ State.powerOn.inited = false ∧ isReserved .cbReturn = false ∧
      isInit .cbReturn = false) ∧
    isReserved .reserved111 = true ∧ (∃ t, exec (.replyAck []) idle = .next t) :=
  ⟨by decide, by decide, rfl, _, rfl⟩
theorem witness_FaultsAreRecordedAndChangeNothingElse :
    InWindow window ∧ Ready idle ∧ 768 < tooLong.length ∧ idle.fault = none ∧ smallBuffer.rxBufSize < 768 ∧
    faulted.fault = some .noWindow := by
  refine ⟨by decide, by decide, tooLong_length, rfl, by decide, rfl⟩
theorem witness_ChecksRunInTheirOrder :
    (faulted.fault = some .noWindow ∧ isReserved (.tick 0) = false) ∧
    (State.powerOn.fault = none ∧ State.powerOn.inited = false ∧ isReserved (.tick 0) = false ∧
      isInit (.tick 0) = false) ∧
    InWindow window ∧ 768 < tooLong.length ∧ Ready idle ∧ Ready outstanding ∧ outstanding.awaitingAck = true := by
  refine ⟨by decide, by decide, by decide, tooLong_length, by decide, by decide, rfl⟩
theorem witness_InitWritesItsRegisters :
    outstanding.fault = none ∧ 768 ≤ defaultCfg.rxBufSize ∧ smallBuffer.rxBufSize < 768 ∧
    faulted.fault = some .noWindow := by decide
theorem witness_InitLeavesHostSideAlone : outstanding.fault = none ∧ 768 ≤ defaultCfg.rxBufSize := by decide
theorem witness_ParserOutsideAFrame :
    (Ready idle ∧ idle.rxState = .expectPreamble) ∧ (Ready garbage ∧ garbage.rxState = .notPreamble) ∧
    (0x5B : Byte) ≠ 0x5A := by decide
theorem witness_PreambleRowIsTheByteReceived :
    (Ready idle ∧ idle.rxState = .expectPreamble) ∧ (Ready garbage ∧ garbage.rxState = .notPreamble) := by decide
theorem witness_HeaderByteIsParsed : Ready atHeader ∧ atHeader.rxState = .expectHeaderHigh := by decide
theorem witness_LengthByteIsParsed :
    Ready atLength ∧ atLength.rxState = .expectHeaderLow ∧ atLength.rxLc ≠ 0 := by decide
theorem witness_PayloadByteIsStored :
    Ready inPayload ∧ inPayload.rxState = .receivingData ∧ inPayload.rxCount < inPayload.cfg.rxBufSize := by decide
theorem witness_CrcHighByteIsKept : Ready atCrcHigh ∧ atCrcHigh.rxState = .expectCrcHigh := by decide
theorem witness_CrcLowByteEndsTheFrame :
    (Ready atCrcLow ∧ atCrcLow.rxState = .expectCrcLow) ∧
    (atCrcLow.rxCrcHi ++ (0x5A : Byte) = atCrcLow.rxCrc ∧ (atCrcLow.rxLc = 0 → atCrcLow.rxLen = 0 ∧ atCrcLow.rxCount = 0)) ∧
    atCrcLow.rxCrcHi ++ (0x5B : Byte) ≠ atCrcLow.rxCrc := by decide
/-- An empty frame meets the premise on the length-class with nothing to spare. -/
theorem witness_CrcLowByteEndsTheFrame_empty :
    let s := { atCrcLow with rxLc := 0, rxLen := 0, rxCount := 0, rxCrc := 0xE9B0, rxCrcHi := 0xE9 }
    Ready s ∧ s.rxState = .expectCrcLow ∧ s.rxCrcHi ++ (0xB0 : Byte) = s.rxCrc ∧
    (s.rxLc = 0 → s.rxLen = 0 ∧ s.rxCount = 0) := by decide

/-- The invariant holds in the middle of a frame, and with a packet outstanding. -/
theorem witness_invariant_in_a_frame : EngineInv inPayload := by
  refine ⟨⟨by decide, by decide, by decide, by decide, by decide, by decide, by decide, by decide⟩, ?_, ?_, ?_, ?_⟩ <;>
    decide
theorem witness_invariant_at_the_trailer : EngineInv atCrcLow := by
  refine ⟨⟨by decide, by decide, by decide, by decide, by decide, by decide, by decide, by decide⟩, ?_, ?_, ?_, ?_⟩ <;>
    decide
theorem witness_invariant_outstanding : EngineInv outstanding := by
  refine ⟨⟨by decide, by decide, by decide, by decide, by decide, by decide, by decide, by decide⟩, ?_, ?_, ?_, ?_⟩ <;>
    decide

theorem witness_EveryByteIsAccepted : EngineInv atCrcLow ∧ Ready atCrcLow :=
  ⟨witness_invariant_at_the_trailer, by decide⟩
/-- The longest payload, from either state between frames, every byte at another time. -/
theorem witness_EncodedFrameIsReceived :
    (Ready idle ∧ idle.rxState = .expectPreamble ∧ 768 ≤ idle.cfg.rxBufSize) ∧
    (Ready garbage ∧ garbage.rxState = .notPreamble ∧ 768 ≤ garbage.cfg.rxBufSize) ∧ longest.length ≤ 768 ∧
    [0, 3, 9].length + 1 = (encodeFrame .reconstructed .ack 15 []).length ∧
    (∃ times : List Nat, times.length + 1 = (encodeFrame .reconstructed .sync 1 longest).length) ∧
    (Kind.sync = .unsync ∨ Kind.sync = .sync) := by
  refine ⟨by decide, by decide, longest_length, rfl, ⟨List.range ((encodeFrame .reconstructed .sync 1 longest).length - 1), ?_⟩,
    by decide⟩
  simp [encodeFrame]
theorem witness_GarbageIsForwardedInOrder :
    (Ready idle ∧ idle.rxState = .expectPreamble) ∧ (Ready garbage ∧ garbage.rxState = .notPreamble) ∧
    ([0x00, 0xFF] : List Byte) ≠ [] ∧ (∀ b ∈ ([0x00, 0xFF] : List Byte), b ≠ 0x5A) ∧
    [4, 900].length = ([0x00, 0xFF] : List Byte).length := by decide
theorem witness_ElapsedTimeDoesNotDrift :
    (timer .ack outstanding).rem = 40 ∧ (timer .ack outstanding).last = 0 ∧ risesTo 0 50 [10, 10, 50] ∧
    ([10, 10, 50] : List Nat) ≠ [] := by simp [timer, outstanding, risesTo]
theorem witness_PrimFollowsEveryTimerOperation :
    Ready outstanding ∧ ∃ u, exec (.tick 40) outstanding = .next u := ⟨by decide, _, rfl⟩
/-- One tick before the deadline. -/
theorem witness_TickWithNothingDueFiresNothing :
    Ready outstanding ∧ ¬ (outstanding.tmrRx.en = true ∧ outstanding.tmrRx.rem - (39 - outstanding.tmrRx.last) = 0) ∧
    ¬ (outstanding.tmrAck.en = true ∧ outstanding.tmrAck.rem - (39 - outstanding.tmrAck.last) = 0) := by decide
/-- At the deadline. -/
theorem witness_ReceiveTimeoutSendsNack :
    Ready atHeader ∧ atHeader.tmrRx.en = true ∧ atHeader.tmrRx.rem - (800 - atHeader.tmrRx.last) = 0 ∧
    ¬ (atHeader.tmrAck.en = true ∧ atHeader.tmrAck.rem - (800 - atHeader.tmrAck.last) = 0) := by decide
theorem witness_AckTimeoutFollowsReceiveTimeout :
    Ready outstanding ∧ outstanding.awaitingAck = true ∧ outstanding.tmrAck.en = true ∧
    outstanding.tmrAck.rem - (40 - outstanding.tmrAck.last) = 0 := by decide
theorem witness_NextSeqWrapsSkippingZero : (14 : Seq) ≠ 15 ∧ (15 : Seq) ≠ 0 ∧ (1 : Seq) ≠ 0 := by decide
theorem witness_SecondSyncTransmitIsBusy :
    Ready outstanding ∧ longest.length ≤ 768 ∧ outstanding.awaitingAck = true := by
  refine ⟨by decide, longest_length, rfl⟩
theorem witness_TransmitSendsTheFrame :
    Ready idle ∧ longest.length ≤ 768 ∧ idle.awaitingAck = false := by
  refine ⟨by decide, longest_length, rfl⟩
/-- The last retry, and the attempt after it. -/
theorem witness_AckTimeoutTriggerRetriesOrAbandons :
    idle.awaitingAck = false ∧ outstanding.awaitingAck = true ∧
    { outstanding with retryCount := 9 }.retryCount + 1 ≤ outstanding.cfg.maxRetries ∧
    outstanding.cfg.maxRetries < { outstanding with retryCount := 10 }.retryCount + 1 := by decide
theorem witness_RetriesAreExhaustedAfterN :
    let s := { outstanding with cfg := { defaultCfg with maxRetries := 2 } }
    Ready s ∧ s.awaitingAck = true ∧ s.retryCount = 0 ∧ s.tmrRx.en = false ∧
    s.tmrAck = { en := true, rem := s.cfg.retryDelay, last := 0 } ∧
    [40, 80, 120].length = s.cfg.maxRetries + 1 ∧ spacedBy s.cfg.retryDelay 0 [40, 80, 120] := by
  refine ⟨by decide, rfl, rfl, rfl, rfl, rfl, by simp [spacedBy, defaultCfg]⟩
theorem witness_OutstandingPacketIsKept :
    outstanding.awaitingAck = true ∧ isInit (.tick 40) = false ∧ ∃ t, exec (.tick 40) outstanding = .next t :=
  ⟨rfl, rfl, _, rfl⟩
theorem witness_AckSettlesTheOutstandingPacket :
    Ready outstanding ∧ rxPayload { outstanding with rxKind := .ack, rxSeq := 1, rxLen := 0 } = .ok [] ∧
    (outstanding.awaitingAck = true ∧ (1 : Seq) = outstanding.txSeq) ∧
    ¬ (outstanding.awaitingAck = true ∧ (2 : Seq) = outstanding.txSeq) ∧
    (let s := { outstanding with rxLen := 2, rxCount := 2, rxBuf := [(0, 0x01), (1, 0x02)] }
     Ready s ∧ rxPayload { s with rxKind := .ack, rxSeq := 1, rxLc := 1 } = .ok [0x01, 0x02]) := by
  refine ⟨by decide, rfl, by decide, by decide, by decide, rfl⟩
/-- With no code, and with the codes NotPreamble and BadCrc, all for the outstanding packet. -/
theorem witness_NackWaitsOrRetransmits :
    Ready outstanding ∧ (outstanding.awaitingAck = true ∧ (1 : Seq) = outstanding.txSeq) ∧
    rxPayload { outstanding with rxKind := .nack, rxSeq := 1, rxLc := 0, rxLen := 0, rxCount := 0 } = .ok [] ∧
    (let s := { outstanding with rxLen := 1, rxCount := 1, rxBuf := [(0, 0x01)] }
     Ready s ∧ rxPayload { s with rxKind := .nack, rxSeq := 1, rxLc := 1 } = .ok [0x01]) ∧
    (let s := { outstanding with rxLen := 1, rxCount := 1, rxBuf := [(0, 0x02)] }
     Ready s ∧ rxPayload { s with rxKind := .nack, rxSeq := 1, rxLc := 1 } = .ok [0x02]) := by
  refine ⟨by decide, by decide, rfl, ⟨by decide, rfl⟩, ⟨by decide, rfl⟩⟩
theorem witness_WireRowsInAWindowAreReentrant :
    InWindow window ∧ Instr.hdrAck 1 0 5 ∈ ([.preamble 5, .hdrAck 1 0 5] : List Instr) := by decide
theorem witness_ValidFrameOpensAWindow :
    Ready received ∧ rxPayload received = .ok [0x01, 0x02] ∧ rxPayload { received with rxLen := 0 } = .ok [] :=
  ⟨by decide, rfl, rfl⟩
theorem witness_CallbackReturnSendsAutoAck :
    InWindow window ∧ Ready idle ∧ faulted.fault = some .noWindow := by decide
theorem witness_ReplyAckSendsAnAck :
    InWindow window ∧ longest.length ≤ 768 ∧ Ready idle ∧ 768 < tooLong.length ∧
    faulted.fault = some .noWindow := by
  refine ⟨by decide, longest_length, by decide, tooLong_length, rfl⟩
theorem witness_EveryStepKeepsTheInvariant :
    EngineInv { outstanding with pending := [stimulusOf (.tick 40)] } ∧
    ∃ t, step { outstanding with pending := [stimulusOf (.tick 40)] } = .next t :=
  ⟨witness_invariant_outstanding, _, rfl⟩
theorem witness_EveryInstructionKeepsThePrimMirror :
    PrimMirrors outstanding ∧ (isInit (.tick 40) = true → outstanding.prim = .idle) ∧
    (PrimMirrors received ∧ (isInit (.init defaultCfg) = true → received.prim = .idle)) := by
  refine ⟨⟨by decide, by decide, by decide, by decide⟩, by decide, ⟨by decide, by decide, by decide, by decide⟩, by decide⟩
theorem witness_NoStepFaults : EngineInv inPayload := witness_invariant_in_a_frame
theorem witness_TraceOnlyGrows :
    (∃ t, exec .cbReturn window = .next t) ∧ (∃ t, exec (.hdrSync 1 1) received = .next t) := ⟨⟨_, rfl⟩, ⟨_, rfl⟩⟩
theorem witness_SequenceAdvancesOnlyWhenSettled :
    (∃ t, exec (.init defaultCfg) outstanding = .next t) ∧ (∃ t, exec (.hdrAck 1 0 5) outstanding = .next t) ∧
    (∃ t, exec (.tick 40) outstanding = .next t) := ⟨⟨_, rfl⟩, ⟨_, rfl⟩, ⟨_, rfl⟩⟩
theorem witness_ConfigurationIsWrittenByInitOnly :
    isInit (.tick 40) = false ∧ (∃ t, exec (.tick 40) outstanding = .next t) ∧
    ∃ t, exec (.init defaultCfg) outstanding = .next t := ⟨rfl, ⟨_, rfl⟩, ⟨_, rfl⟩⟩
theorem witness_ModeChangesOnlyByItsRules :
    (idle.ctx = .idle ∧ after State.ctx (exec (.hdrSync 1 1) received) = some .inRxCallback) ∧
    (window.ctx = .inRxCallback ∧ after State.ctx (exec .cbReturn window) = some .idle) := by decide
theorem witness_CrcUpdateIsAParameter : ∃ t, exec (.init defaultCfg) outstanding = .next t := ⟨_, rfl⟩
theorem witness_BufferIsWrittenAtRxCountOnly :
    Memory.wf inPayload.rxBufFill inPayload.rxBuf = true ∧
    (isInit (.tick 5) = false ∧ takesByte (.tick 5) = false ∧ ∃ t, exec (.tick 5) inPayload = .next t) ∧
    (takesByte (.receiveByte 2 0) = true ∧ ∃ t, exec (.receiveByte 2 0) inPayload = .next t) ∧
    (0 : Nat) ≠ inPayload.rxCount ∧ idle.rxState ≠ .receivingData :=
  ⟨rfl, ⟨rfl, rfl, _, rfl⟩, ⟨rfl, _, rfl⟩, by decide, by decide⟩

end Sys2Proof.Tests
end

/-! ## The whole machine: the trace, the parameter CRC_UPDATE and the step

That an operation only appends to the trace (R24) is said with the library's list prefix `<+:`, whose transitivity joins
the operations of a composed one. Each instruction is then one case of `Action`, and each received byte one of `Parsed`. -/

namespace Sys2Proof.Machine

/-! ### The shared operations append to the trace -/

theorem muxSet_trace_prefix (T : TimerId) (d t : Nat) (s : State) : s.trace <+: (muxSet T d t s).trace := by
  rw [muxSet_trace]
  exact List.prefix_append ..

theorem muxCancel_trace_prefix (T : TimerId) (t : Nat) (s : State) : s.trace <+: (muxCancel T t s).trace := by
  rw [muxCancel_trace]
  exact List.prefix_append ..

theorem sendFrame_trace_prefix (k : Kind) (q : Seq) (p : List Byte) (s : State) :
    s.trace <+: (sendFrame k q p s).trace := by
  rw [sendFrame_trace]
  exact List.prefix_append ..

theorem acceptPreamble_trace_prefix (t : Nat) (s : State) : s.trace <+: (acceptPreamble t s).trace :=
  muxSet_trace_prefix .rx s.cfg.rxTimeout t s

theorem endFrame_trace_prefix (t : Nat) (s : State) : s.trace <+: (endFrame t s).trace :=
  muxCancel_trace_prefix .rx t s

theorem forwardNonprotocol_trace_prefix (b : Byte) (s : State) :
    s.trace <+: (forwardNonprotocol b s).trace := by
  unfold forwardNonprotocol
  split
  · simp
  · exact List.prefix_rfl

theorem retransmit_trace_prefix (t : Nat) (s : State) : s.trace <+: (retransmit t s).trace := by
  have sent : s.trace <+: (emitFrame s.txFrame s).trace := by simp
  exact sent.trans (muxSet_trace_prefix ..)

theorem sendSync_trace_prefix (p : List Byte) (t : Nat) (s : State) : s.trace <+: (sendSync p t s).trace :=
  (sendFrame_trace_prefix .sync s.txSequence p s).trans (muxSet_trace_prefix ..)

theorem closeWindow_trace_prefix (s : State) : s.trace <+: (closeWindow s).trace := by
  rw [closeWindow_eq]
  exact List.prefix_append ..

/-! ### The correlator and the tick append to the trace -/

theorem ackTimeoutTrigger_trace_prefix (t : Nat) (s : State) :
    s.trace <+: (ackTimeoutTrigger t s).trace := by
  rcases ackTimeoutTrigger_cases t s with ⟨-, h⟩ | ⟨-, -, h⟩ | ⟨-, -, h⟩ <;> rw [h]
  · simp
  · exact retransmit_trace_prefix t { s with retryCount := s.retryCount + 1 }

theorem ackReceived_trace_prefix (q : Seq) (p : List Byte) (t : Nat) (s : State) :
    s.trace <+: (ackReceived q p t s).trace := by
  rcases ackReceived_cases q p t s with ⟨-, h⟩ | ⟨-, -, h⟩ <;> rw [h]
  have reported : (muxCancel .ack t s).trace <+: (emit (.ackRx q p) (settle (muxCancel .ack t s))).trace := by simp
  exact (muxCancel_trace_prefix ..).trans reported

theorem nackReceived_trace_prefix (q : Seq) (p : List Byte) (t : Nat) (s : State) :
    s.trace <+: (nackReceived q p t s).trace := by
  obtain ⟨d, h | ⟨-, -, h⟩⟩ := nackReceived_cases q p t s <;> rw [h]
  exact (muxCancel_trace_prefix .ack t { s with draws := d }).trans (ackTimeoutTrigger_trace_prefix ..)

theorem deliver_trace_prefix (p : List Byte) (t : Nat) (s : State) : s.trace <+: (deliver p t s).trace := by
  cases hk : s.rxKind <;> simp only [deliver, hk]
  case unsync => simp
  case sync => simp
  case ack => exact ackReceived_trace_prefix ..
  case nack => exact nackReceived_trace_prefix ..

theorem runTick_trace_prefix (t : Nat) (s : State) : s.trace <+: (runTick t s).trace := by
  have timedOut : s.trace <+: (rxTimeoutHandler (disarmFired (accrue t s))).trace := by simp
  obtain ⟨u, e, h⟩ := runTick_eq t s
  have handled : s.trace <+: u.trace := by
    rcases h with rfl | rfl | rfl | rfl
    · simp
    · exact timedOut
    · exact ackTimeoutTrigger_trace_prefix t (disarmFired (accrue t s))
    · exact timedOut.trans (ackTimeoutTrigger_trace_prefix ..)
  rw [e, reschedule_trace]
  exact handled.trans (List.prefix_append ..)

/-! ### Every received byte and every instruction appends to the trace -/

theorem parsed_trace_prefix {b : Byte} {t : Nat} {s u : State} (h : Parsed b t s u) : s.trace <+: u.trace := by
  cases h with
  | preamble => exact acceptPreamble_trace_prefix ..
  | garbageNack => exact (sendFrame_trace_prefix ..).trans (acceptPreamble_trace_prefix ..)
  | garbage => exact forwardNonprotocol_trace_prefix b { s with rxState := .notPreamble }
  | header | length | payload | crcHigh => simp
  | badCrc => exact (endFrame_trace_prefix ..).trans (sendFrame_trace_prefix ..)
  | frame => exact (endFrame_trace_prefix ..).trans (deliver_trace_prefix ..)

theorem action_trace_prefix {i : Instr} {s u : State} (h : Action i s u) : s.trace <+: u.trace := by
  cases h with
  | byte _ _ _ hp | preambleRow _ _ hp => exact parsed_trace_prefix hp
  | tick => exact runTick_trace_prefix ..
  | busy | invalidState => exact List.prefix_rfl
  | sendSync => exact sendSync_trace_prefix ..
  | cbReturn => exact closeWindow_trace_prefix s
  | sendUnsync | reply | init | openUnsync | openSync => simp
  | ack q l t p => exact ackReceived_trace_prefix q p t (latchHeader .ack q l s)
  | nack q l t p => exact nackReceived_trace_prefix q p t (latchHeader .nack q l s)
  | nackCode => exact nackReceived_trace_prefix ..

theorem exec_trace_prefix {i : Instr} {s t : State} (h : exec i s = .next t) : s.trace <+: t.trace := by
  rcases exec_next h with ⟨f, rfl⟩ | ⟨u, r, ha, rfl⟩
  · exact List.prefix_rfl
  · exact action_trace_prefix (u := u) ha

/-! ### No instruction writes CRC_UPDATE -/

theorem parsed_crcUpdate {b : Byte} {t : Nat} {s u : State} (h : Parsed b t s u) :
    u.crcUpdate = s.crcUpdate := by
  cases h <;> simp

theorem action_crcUpdate {i : Instr} {s u : State} (h : Action i s u) : u.crcUpdate = s.crcUpdate := by
  cases h with
  | byte _ _ _ hp | preambleRow _ _ hp => exact parsed_crcUpdate hp
  | busy | invalidState => rfl
  | tick | sendSync | sendUnsync | reply | cbReturn | init | openUnsync | openSync | ack | nack | nackCode => simp

theorem exec_crcUpdate {i : Instr} {s t : State} (h : exec i s = .next t) : t.crcUpdate = s.crcUpdate := by
  rcases exec_next h with ⟨f, rfl⟩ | ⟨u, r, ha, rfl⟩
  · rfl
  · exact action_crcUpdate (u := u) ha

/-! ### A step by the queue of stimuli -/

theorem step_of_pending_cons {s : State} {c : Stimulus} {rest : List Stimulus} (h : s.pending = c :: rest) :
    step s = exec (decodeStimulus c) { s with pending := rest } := by
  simp [step, stepOnce, fetch, h]

theorem step_of_pending_nil {s : State} (h : s.pending = []) : step s = .next s := by
  simp [step, stepOnce, fetch, h]

/-! ### The statements -/

/-- Settles O54: every action, and every fault recorded, leaves the old trace as a prefix of the new one. -/
theorem traceOnlyGrows : Obligations.TraceOnlyGrows := by
  intro i s t h
  obtain ⟨l, hl⟩ := exec_trace_prefix h
  exact ⟨l, hl.symm⟩

/-- Settles O56: the field frames of the operations, one per action, and the default by definition. -/
theorem crcUpdateIsAParameter : Obligations.CrcUpdateIsAParameter :=
  ⟨fun _ _ _ h => exec_crcUpdate h, rfl, rfl⟩

/-- Settles O12: the two cases of the queue. -/
theorem stepRunsTheDeliveredStimulus : Obligations.StepRunsTheDeliveredStimulus :=
  ⟨fun _ _ _ h => step_of_pending_cons h, fun _ h => step_of_pending_nil h⟩

end Sys2Proof.Machine

/-! ## The state of the engine: its invariant, the mirror of R54 and who writes what

The invariant has five parts. Each operation is shown to keep every part, the parts it does not touch by an agreement of
the fields they read (`SameReceiver`, `SameSender`), and each stimulus is then one case of `Action`. -/

namespace Sys2Proof.Machine

/-! ### Fields of the composed operations -/

@[simp] theorem acceptPreamble_tmrRx (t : Nat) (s : State) :
    (acceptPreamble t s).tmrRx = { en := true, rem := s.cfg.rxTimeout, last := t } :=
  muxSet_rx_tmrRx ..
@[simp] theorem acceptPreamble_tmrAck (t : Nat) (s : State) : (acceptPreamble t s).tmrAck = s.tmrAck.accrue t :=
  muxSet_rx_tmrAck s.cfg.rxTimeout t s
@[simp] theorem endFrame_tmrRx (t : Nat) (s : State) :
    (endFrame t s).tmrRx = { s.tmrRx.accrue t with en := false } :=
  muxCancel_rx_tmrRx ..
@[simp] theorem endFrame_tmrAck (t : Nat) (s : State) : (endFrame t s).tmrAck = s.tmrAck.accrue t :=
  muxCancel_rx_tmrAck ..
@[simp] theorem sendSync_tmrRx (p : List Byte) (t : Nat) (s : State) :
    (sendSync p t s).tmrRx = s.tmrRx.accrue t := by
  simp [sendSync]
@[simp] theorem sendSync_tmrAck (p : List Byte) (t : Nat) (s : State) :
    (sendSync p t s).tmrAck = { en := true, rem := s.cfg.retryDelay, last := t } := by
  simp [sendSync]
@[simp] theorem retransmit_tmrRx (t : Nat) (s : State) : (retransmit t s).tmrRx = s.tmrRx.accrue t := by
  simp [retransmit]
@[simp] theorem retransmit_tmrAck (t : Nat) (s : State) :
    (retransmit t s).tmrAck = { en := true, rem := s.cfg.retryDelay, last := t } := by
  simp [retransmit]
@[simp] theorem disarmFired_tmrRx (s : State) :
    (disarmFired s).tmrRx = { s.tmrRx with en := s.tmrRx.en && !s.tmrRx.fires } := rfl
@[simp] theorem disarmFired_tmrAck (s : State) :
    (disarmFired s).tmrAck = { s.tmrAck with en := s.tmrAck.en && !s.tmrAck.fires } := rfl

@[simp] theorem runInit_tmrRx_en (c : Cfg) (s : State) : (runInit c s).tmrRx.en = false := rfl
@[simp] theorem runInit_tmrAck_en (c : Cfg) (s : State) : (runInit c s).tmrAck.en = false := rfl

/-- A valid frame, by its kind: a window, or the correlator (R200). -/
theorem deliver_cases (p : List Byte) (t : Nat) (s : State) :
    ((s.rxKind = .unsync ∨ s.rxKind = .sync) ∧ deliver p t s = openWindow s.rxKind s.rxSeq p s) ∨
    deliver p t s = ackReceived s.rxSeq p t s ∨ deliver p t s = nackReceived s.rxSeq p t s := by
  cases hk : s.rxKind <;> simp [deliver, hk]

/-- A tick leaves the parser where it was or, after a receive timeout, at a frame boundary (R131). -/
theorem runTick_rxState (t : Nat) (s : State) :
    (runTick t s).rxState = s.rxState ∨ (runTick t s).rxState = .expectPreamble := by
  obtain ⟨u, e, h⟩ := runTick_eq t s
  rcases h with rfl | rfl | rfl | rfl <;> simp [e]

/-! ### The encoding of a frame, as the parser takes it apart -/

theorem code_kindOfCode (c : BitVec 2) : (kindOfCode c).code = c := by
  revert c; decide

/-- A header byte is packed from its own three fields (R81, R92). -/
theorem headerByte_of_fields (b : Byte) : headerByte (headerKind b) (headerSeq b) (headerLen b) = b := by
  have upper : b.extractLsb' 6 2 ++ b.extractLsb' 2 4 = b.extractLsb' 2 6 :=
    BitVec.extractLsb'_append_extractLsb'_eq_extractLsb' rfl
  have whole : b.extractLsb' 2 6 ++ b.extractLsb' 0 2 = b.extractLsb' 0 8 :=
    BitVec.extractLsb'_append_extractLsb'_eq_extractLsb' rfl
  rw [headerByte, headerKind, code_kindOfCode, headerSeq, headerLen, upper, whole, BitVec.extractLsb'_eq_self]

theorem toNat_pos_of_ne_zero {lc : LenClass} (h : lc ≠ 0) : 1 ≤ lc.toNat := by
  have : lc.toNat ≠ 0 := fun h0 => h (BitVec.eq_of_toNat_eq h0)
  omega

/-- A frame with a length byte has 1 to 768 payload bytes (R84). -/
theorem assembleLength_pos (lc : LenClass) (b : Byte) : 0 < assembleLength lc b := by
  simp [assembleLength]

theorem assembleLength_le (lc : LenClass) (b : Byte) : assembleLength lc b ≤ maxPayload := by
  have := lc.isLt
  have := b.isLt
  simp only [assembleLength, maxPayload]
  omega

/-- The length fields of an assembled length are the two it was assembled from (R85). -/
theorem lengthFields_assembleLength {lc : LenClass} (h : lc ≠ 0) (b : Byte) :
    lengthFields (assembleLength lc b) = (lc, [b]) := by
  have hpos := toNat_pos_of_ne_zero h
  have hb := b.isLt
  have hclass : ((lc.toNat - 1) * 256 + b.toNat) / 256 + 1 = lc.toNat := by omega
  have hbyte : BitVec.ofNat 8 ((lc.toNat - 1) * 256 + b.toNat) = b :=
    BitVec.eq_of_toNat_eq (by rw [BitVec.toNat_ofNat]; omega)
  simp [lengthFields, assembleLength, Nat.shiftRight_eq_div_pow, hclass, hbyte]

/-- The CRC of a run with one more byte (R111, R112). -/
theorem crcOver_concat (update : CrcUpdate) (c : Crc) (bs : List Byte) (b : Byte) :
    crcOver update c (bs ++ [b]) = crcUpdate update (crcOver update c bs) b :=
  List.foldl_concat ..

/-- A stored payload byte is one more byte of the frame in progress (R127). -/
theorem storedBytes_storePayloadByte (b : Byte) (s : State) :
    storedBytes (storePayloadByte b s) = storedBytes s ++ [b] := by
  have below : (List.range s.rxCount).map (bufByte (storePayloadByte b s)) = storedBytes s :=
    List.map_congr_left fun a ha => by
      rw [storePayloadByte_bufByte, if_neg (Nat.ne_of_lt (List.mem_range.1 ha))]
  rw [storedBytes, storePayloadByte_rxCount, List.range_succ, List.map_append, below]
  simp

/-! ### The receive side -/

/-- The two states agree on the buffer, its size and the lengths. -/
structure SameBuffer (s t : State) : Prop where
  cfg : t.cfg = s.cfg
  rxBuf : t.rxBuf = s.rxBuf
  rxBufFill : t.rxBufFill = s.rxBufFill
  rxLen : t.rxLen = s.rxLen
  rxCount : t.rxCount = s.rxCount

/-- The two states agree on everything that the receive side of the invariant reads. -/
structure SameReceiver (s t : State) : Prop where
  cfg : t.cfg = s.cfg
  rxBuf : t.rxBuf = s.rxBuf
  rxBufFill : t.rxBufFill = s.rxBufFill
  rxLen : t.rxLen = s.rxLen
  rxCount : t.rxCount = s.rxCount
  crcUpdate : t.crcUpdate = s.crcUpdate
  rxState : t.rxState = s.rxState
  rxKind : t.rxKind = s.rxKind
  rxSeq : t.rxSeq = s.rxSeq
  rxLc : t.rxLc = s.rxLc
  rxCrc : t.rxCrc = s.rxCrc

/-- No header of a frame in progress has been latched yet. -/
def RxState.beforeHeader : RxState → Bool
  | .expectPreamble | .notPreamble | .expectHeaderHigh => true
  | .expectHeaderLow | .receivingData | .expectCrcHigh | .expectCrcLow => false

theorem SameReceiver.parserInv {s t : State} (h : SameReceiver s t) (hs : ParserInv s) : ParserInv t := by
  simpa only [ParserInv, h.cfg, h.rxBuf, h.rxBufFill, h.rxLen, h.rxCount, h.rxState, h.rxLc] using hs

theorem SameReceiver.crcInv {s t : State} (h : SameReceiver s t) (hs : CrcInv s) : CrcInv t := by
  have stored : storedBytes t = storedBytes s := by
    rw [storedBytes, h.rxCount]
    exact List.map_congr_left fun a _ => bufByte_congr h.rxBuf h.rxBufFill a
  simpa only [CrcInv, h.rxState, h.rxCrc, h.crcUpdate, h.rxKind, h.rxSeq, h.rxLc, h.rxLen, stored] using hs

theorem SameBuffer.parserInv {s t : State} (h : SameBuffer s t) (ht : t.rxState.beforeHeader = true)
    (hs : ParserInv s) : ParserInv t := by
  obtain ⟨hsize, hwf, haddr, hlen, hcount, -, -, -⟩ := hs
  have hlow : ¬ (t.rxState = .expectHeaderLow ∨ t.rxState = .receivingData) := by
    rintro (e | e) <;> simp [e, RxState.beforeHeader] at ht
  have htrailer : t.rxState.inTrailer = false := by
    cases e : t.rxState <;> simp_all [RxState.beforeHeader, RxState.inTrailer]
  exact ⟨h.cfg ▸ hsize, h.rxBufFill ▸ h.rxBuf ▸ hwf, h.rxBuf ▸ haddr, h.rxLen ▸ hlen, h.rxCount ▸ hcount,
    fun e => absurd e hlow, fun e => absurd (.inr e) hlow, fun e => by simp [htrailer] at e⟩

/-- Outside a frame the running CRC is free. -/
theorem crcInv_of_boundary {s : State} (h : s.rxState.midFrame = false) : CrcInv s := by
  refine ⟨fun e => ?_, fun e => ?_, fun e => ?_⟩
  · simp [e, RxState.midFrame] at h
  · simp [e, RxState.midFrame] at h
  · cases hs : s.rxState <;> simp_all [RxState.midFrame, RxState.inPayload]

theorem acceptPreamble_crcInv (t : Nat) (s : State) : CrcInv (acceptPreamble t s) := by
  simp [CrcInv, RxState.inPayload]

/-- The header byte: a frame without payload goes on to its trailer, any other to its length byte (R125). -/
theorem inExpectHeaderHigh_parserInv (b : Byte) {s : State} (h : ParserInv s) :
    ParserInv (inExpectHeaderHigh b s) := by
  obtain ⟨hsize, hwf, haddr, hlen, hcount, -, -, -⟩ := h
  refine ⟨by simpa, by simpa, by simpa using haddr, ?_⟩
  by_cases hl : headerLen b = 0#2
  · simp [hl]
  · simp [hl, hlen, hcount, RxState.inTrailer]

theorem inExpectHeaderHigh_crcInv (b : Byte) {s : State} (hs : s.rxState = .expectHeaderHigh) (h : CrcInv s) :
    CrcInv (inExpectHeaderHigh b s) := by
  obtain ⟨hinit, -, -⟩ := h
  have folded : crcUpdate s.crcUpdate s.rxCrc b = crcOver s.crcUpdate crcInit [b] := by
    rw [hinit hs]; rfl
  have packed := headerByte_of_fields b
  by_cases hl : headerLen b = 0#2
  · rw [hl] at packed
    simp [CrcInv, hl, folded, packed, lengthFields, storedBytes]
  · simp [CrcInv, RxState.inPayload, hl, folded, packed]

/-- A length byte is awaited only where the header announced one. -/
theorem rxLc_ne_zero_of_expectHeaderLow {s : State} (h : ParserInv s) (hs : s.rxState = .expectHeaderLow) :
    s.rxLc ≠ 0 := by
  obtain ⟨-, -, -, -, -, hlc, -, -⟩ := h
  exact hlc (.inl hs)

/-- The length byte: the payload begins, with at least one byte to come (R126). -/
theorem inExpectHeaderLow_parserInv (b : Byte) {s : State} (hs : s.rxState = .expectHeaderLow) (h : ParserInv s) :
    ParserInv (inExpectHeaderLow b s) := by
  have hne : s.rxLc ≠ 0#2 := rxLc_ne_zero_of_expectHeaderLow h hs
  obtain ⟨hsize, hwf, haddr, -⟩ := h
  refine ⟨by simpa, by simpa, by simpa using haddr, ?_⟩
  simp [hne, RxState.inTrailer, assembleLength_pos, assembleLength_le]

theorem inExpectHeaderLow_crcInv (b : Byte) {s : State} (hs : s.rxState = .expectHeaderLow) (hlc : s.rxLc ≠ 0)
    (h : CrcInv s) : CrcInv (inExpectHeaderLow b s) := by
  obtain ⟨-, hcrc, -⟩ := h
  have folded : crcUpdate s.crcUpdate s.rxCrc b =
      crcOver s.crcUpdate crcInit ([headerByte s.rxKind s.rxSeq s.rxLc] ++ [b]) := by
    rw [crcOver_concat, hcrc hs]
  simp [CrcInv, RxState.inPayload, lengthFields_assembleLength hlc, folded, storedBytes]

/-- A payload byte: the last one ends the payload (R127). -/
theorem storePayloadByte_parserInv (b : Byte) {s : State} (hs : s.rxState = .receivingData) (h : ParserInv s) :
    ParserInv (storePayloadByte b s) := by
  obtain ⟨hsize, hwf, haddr, hlen, -, hlc, hlt, -⟩ := h
  have hne : s.rxLc ≠ 0#2 := hlc (.inr hs)
  have hroom := hlt hs
  have haddr' : ∀ c ∈ Memory.write s.rxBufFill s.rxBuf s.rxCount b, c.1 < maxPayload := by
    intro c hc
    rcases Memory.mem_write hc with ⟨rfl, -⟩ | hc
    · exact Nat.lt_of_lt_of_le hroom hlen
    · exact haddr c hc
  refine ⟨by simpa, by simpa using Memory.wf_write _ _ _ _ hwf, by simpa using haddr', by simpa, ?_, ?_, ?_, ?_⟩
  · simpa using Nat.le_trans hroom hlen
  · intro _; simpa using hne
  · by_cases hlast : s.rxCount + 1 = s.rxLen
    · simp [hlast]
    · have : s.rxCount + 1 < s.rxLen := by omega
      simpa [hlast] using this
  · by_cases hlast : s.rxCount + 1 = s.rxLen
    · simp [hlast, hne]
    · simp [hlast, RxState.inTrailer]

theorem storePayloadByte_crcInv (b : Byte) {s : State} (hs : s.rxState = .receivingData) (h : CrcInv s) :
    CrcInv (storePayloadByte b s) := by
  obtain ⟨-, -, hcovered⟩ := h
  obtain ⟨hlc, hcrc⟩ := hcovered (by simp [hs, RxState.inPayload])
  have folded : crcUpdate s.crcUpdate s.rxCrc b = crcOver s.crcUpdate crcInit
      (headerByte s.rxKind s.rxSeq s.rxLc :: ((lengthFields s.rxLen).2 ++ (storedBytes s ++ [b]))) := by
    rw [← List.append_assoc, ← List.cons_append, crcOver_concat, hcrc]
  refine ⟨fun e => ?_, fun e => ?_, fun _ => ?_⟩
  · rw [storePayloadByte_rxState] at e; split at e <;> cases e
  · rw [storePayloadByte_rxState] at e; split at e <;> cases e
  · simpa [storedBytes_storePayloadByte, folded] using hlc

/-- The high byte of the trailer is only kept (R128). -/
theorem inExpectCrcHigh_parserInv (b : Byte) {s : State} (hs : s.rxState = .expectCrcHigh) (h : ParserInv s) :
    ParserInv (inExpectCrcHigh b s) := by
  simpa [ParserInv, hs, RxState.inTrailer] using h

theorem inExpectCrcHigh_crcInv (b : Byte) {s : State} (hs : s.rxState = .expectCrcHigh) (h : CrcInv s) :
    CrcInv (inExpectCrcHigh b s) := by
  obtain ⟨-, -, hcovered⟩ := h
  exact ⟨fun e => by simp at e, fun e => by simp at e, fun _ => hcovered (by simp [hs, RxState.inPayload])⟩

/-! ### The send side -/

/-- The two states agree on everything that the send side of the invariant reads. -/
structure SameSender (s t : State) : Prop where
  cfg : t.cfg = s.cfg
  crcUpdate : t.crcUpdate = s.crcUpdate
  txValid : t.txValid = s.txValid
  txSeq : t.txSeq = s.txSeq
  txPayload : t.txPayload = s.txPayload
  txFrame : t.txFrame = s.txFrame
  txSequence : t.txSequence = s.txSequence
  awaitingAck : t.awaitingAck = s.awaitingAck
  retryCount : t.retryCount = s.retryCount

theorem SameSender.txInv {s t : State} (h : SameSender s t) (hs : TxInv s) : TxInv t := by
  simpa only [TxInv, h.cfg, h.crcUpdate, h.txValid, h.txSeq, h.txPayload, h.txFrame, h.txSequence, h.awaitingAck,
    h.retryCount] using hs

/-- The numbers wrap 15 to 1, so none of them is 0 (R172). -/
theorem nextSeq_ne_zero (q : Seq) : nextSeq q ≠ 0 := by
  revert q; decide

theorem settle_txInv {s : State} (h : TxInv s) : TxInv (settle s) := by
  obtain ⟨-, -, hstore, hbound⟩ := h
  exact ⟨nextSeq_ne_zero _, fun e => by simp at e, hstore, hbound⟩

theorem retransmit_sameSender (t : Nat) (s : State) : SameSender s (retransmit t s) := by
  constructor <;> simp

/-- The retry trigger counts at most one attempt beyond the limit, and only to abandon (R45, R178). -/
theorem ackTimeoutTrigger_txInv (t : Nat) {s : State} (h : TxInv s) : TxInv (ackTimeoutTrigger t s) := by
  rcases ackTimeoutTrigger_cases t s with ⟨-, e⟩ | ⟨ha, -, e⟩ | ⟨ha, hleft, e⟩ <;> rw [e]
  · exact h
  · obtain ⟨-, hout, hstore, -⟩ := h
    obtain ⟨-, -, hcount⟩ := hout ha
    exact ⟨nextSeq_ne_zero _, fun e => by simp at e, hstore, Nat.succ_le_succ hcount⟩
  · obtain ⟨hseq, hout, hstore, -⟩ := h
    obtain ⟨hvalid, hcur, -⟩ := hout ha
    have counted : TxInv { s with retryCount := s.retryCount + 1 } :=
      ⟨hseq, fun _ => ⟨hvalid, hcur, hleft⟩, hstore, Nat.le_succ_of_le hleft⟩
    exact (retransmit_sameSender t { s with retryCount := s.retryCount + 1 }).txInv counted

theorem muxCancel_sameSender (T : TimerId) (t : Nat) (s : State) : SameSender s (muxCancel T t s) := by
  constructor <;> simp

theorem ackReceived_txInv (q : Seq) (p : List Byte) (t : Nat) {s : State} (h : TxInv s) :
    TxInv (ackReceived q p t s) := by
  rcases ackReceived_cases q p t s with ⟨-, e⟩ | ⟨-, -, e⟩ <;> rw [e]
  · exact h
  · exact settle_txInv ((muxCancel_sameSender .ack t s).txInv h)

theorem nackReceived_txInv (q : Seq) (p : List Byte) (t : Nat) {s : State} (h : TxInv s) :
    TxInv (nackReceived q p t s) := by
  obtain ⟨d, e | ⟨-, -, e⟩⟩ := nackReceived_cases q p t s <;> rw [e]
  · exact h
  · exact ackTimeoutTrigger_txInv t ((muxCancel_sameSender .ack t { s with draws := d }).txInv h)

theorem runTick_txInv (t : Nat) {s : State} (h : TxInv s) : TxInv (runTick t s) := by
  have ticked : SameSender s (disarmFired (accrue t s)) := by constructor <;> simp
  have timedOut : SameSender s (rxTimeoutHandler (disarmFired (accrue t s))) := by constructor <;> simp
  have rescheduled : ∀ u, SameSender u (reschedule t u) := fun u => by constructor <;> simp
  obtain ⟨u, e, hu⟩ := runTick_eq t s
  rw [e]
  refine (rescheduled u).txInv ?_
  rcases hu with rfl | rfl | rfl | rfl
  · exact ticked.txInv h
  · exact timedOut.txInv h
  · exact ackTimeoutTrigger_txInv t (ticked.txInv h)
  · exact ackTimeoutTrigger_txInv t (timedOut.txInv h)

/-- A packet just sent is in the store under the current number, with no attempt counted (R176). -/
theorem sendSync_txInv {p : List Byte} (hp : p.length ≤ maxPayload) (t : Nat) {s : State} (h : TxInv s) :
    TxInv (sendSync p t s) := by
  obtain ⟨hseq, -, -, -⟩ := h
  simpa [TxInv, hp] using hseq

/-! ### The timers -/

/-- The timer side of the invariant reads the two records, the parser's position and the outstanding flag. -/
theorem timerInv_congr {s t : State} (hr : t.tmrRx = s.tmrRx) (ha : t.tmrAck = s.tmrAck)
    (hm : t.rxState.midFrame = s.rxState.midFrame) (hw : t.awaitingAck = s.awaitingAck) (h : TimerInv s) :
    TimerInv t := by
  simpa only [TimerInv, hr, ha, hm, hw] using h

/-- With the ack timer just disabled, the retry trigger arms it again or settles the packet (R49, R178). -/
theorem ackTimeoutTrigger_timerInv (t : Nat) {s : State} (hout : s.awaitingAck = true)
    (hrx : s.tmrRx.en = s.rxState.midFrame) (hack : s.tmrAck.en = false) (hlast : s.tmrRx.last = s.tmrAck.last) :
    TimerInv (ackTimeoutTrigger t s) := by
  rcases ackTimeoutTrigger_cases t s with ⟨ha, -⟩ | ⟨-, -, e⟩ | ⟨-, -, e⟩
  · simp [hout] at ha
  · rw [e]; exact ⟨hrx, by simp [hack], fun _ => hlast⟩
  · rw [e]; exact ⟨by simpa using hrx, by simp [hout], fun _ => by simp⟩

theorem ackReceived_timerInv (q : Seq) (p : List Byte) (t : Nat) {s : State} (h : TimerInv s) :
    TimerInv (ackReceived q p t s) := by
  have ⟨hrx, _⟩ := h
  rcases ackReceived_cases q p t s with ⟨-, e⟩ | ⟨-, -, e⟩ <;> rw [e]
  · exact h
  · exact ⟨by simpa using hrx, by simp, fun _ => by simp⟩

theorem nackReceived_timerInv (q : Seq) (p : List Byte) (t : Nat) {s : State} (h : TimerInv s) :
    TimerInv (nackReceived q p t s) := by
  have ⟨hrx, _⟩ := h
  obtain ⟨d, e | ⟨hout, -, e⟩⟩ := nackReceived_cases q p t s <;> rw [e]
  · exact h
  · exact ackTimeoutTrigger_timerInv t (by simpa using hout) (by simpa using hrx) (by simp) (by simp)

/-- The state of a tick after the receive timer's handler (R155, R156). -/
def afterRxHandler (t : Nat) (s : State) : State :=
  if (s.tmrRx.accrue t).fires then rxTimeoutHandler (disarmFired (accrue t s)) else disarmFired (accrue t s)

theorem runTick_eq_afterRxHandler (t : Nat) (s : State) : runTick t s = reschedule t
    (if (s.tmrAck.accrue t).fires then ackTimeoutTrigger t (afterRxHandler t s) else afterRxHandler t s) := rfl

/-- A receive timer that fires is disabled and its frame dropped; one that does not fire stays as it was. -/
theorem afterRxHandler_tmrRx_en (t : Nat) {s : State} (h : s.tmrRx.en = s.rxState.midFrame) :
    (afterRxHandler t s).tmrRx.en = (afterRxHandler t s).rxState.midFrame := by
  unfold afterRxHandler
  cases hf : (s.tmrRx.accrue t).fires
  · simpa [hf] using h
  · simp [hf, RxState.midFrame]

theorem afterRxHandler_tmrAck (t : Nat) (s : State) :
    (afterRxHandler t s).tmrAck = (disarmFired (accrue t s)).tmrAck := by
  unfold afterRxHandler; split <;> simp

theorem afterRxHandler_tmrRx_last (t : Nat) (s : State) : (afterRxHandler t s).tmrRx.last = t := by
  unfold afterRxHandler; split <;> simp

theorem afterRxHandler_awaitingAck (t : Nat) (s : State) : (afterRxHandler t s).awaitingAck = s.awaitingAck := by
  unfold afterRxHandler; split <;> simp

theorem Timer.en_of_fires {tm : Timer} (h : tm.fires = true) : tm.en = true :=
  (Bool.and_eq_true_iff.1 h).1

theorem runTick_timerInv (t : Nat) {s : State} (h : TimerInv s) : TimerInv (runTick t s) := by
  obtain ⟨hrx, hack, -⟩ := h
  have hrx' := afterRxHandler_tmrRx_en t hrx
  have hlast : (afterRxHandler t s).tmrRx.last = (afterRxHandler t s).tmrAck.last := by
    simp [afterRxHandler_tmrRx_last, afterRxHandler_tmrAck]
  rw [runTick_eq_afterRxHandler]
  refine timerInv_congr (reschedule_tmrRx ..) (reschedule_tmrAck ..) (by simp) (reschedule_awaitingAck ..) ?_
  cases hf : (s.tmrAck.accrue t).fires
  · refine ⟨hrx', ?_, fun _ => hlast⟩
    simpa [afterRxHandler_tmrAck, afterRxHandler_awaitingAck, hf] using hack
  · have running : (s.tmrAck.accrue t).en = true := Timer.en_of_fires hf
    have hout : s.awaitingAck = true := hack.symm.trans running
    exact ackTimeoutTrigger_timerInv t ((afterRxHandler_awaitingAck t s).trans hout) hrx'
      (by simp [afterRxHandler_tmrAck, hf]) hlast

theorem sendSync_timerInv (p : List Byte) (t : Nat) {s : State} (h : TimerInv s) : TimerInv (sendSync p t s) :=
  have ⟨hrx, _⟩ := h
  ⟨by simpa using hrx, by simp, fun _ => by simp⟩

/-! ### The window -/

/-- Outside a window its part of the invariant says nothing. -/
theorem windowInv_of_idle {s : State} (h : s.ctx = .idle) : WindowInv s := by
  simp [WindowInv, h]

/-! ### Every operation of a stimulus keeps the invariant -/

/-- A frame sent outside the TX store touches nothing that the invariant reads (R173). -/
theorem sendFrame_engineInv (k : Kind) (q : Seq) (p : List Byte) {s : State} (h : EngineInv s) :
    EngineInv (sendFrame k q p s) := h

theorem acceptPreamble_engineInv (t : Nat) {s : State} (h : EngineInv s) (hc : s.ctx = .idle) :
    EngineInv (acceptPreamble t s) := by
  obtain ⟨hp, -, htx, ⟨-, hack, -⟩, -⟩ := h
  have buffer : SameBuffer s (acceptPreamble t s) := by constructor <;> simp
  have sender : SameSender s (acceptPreamble t s) := by constructor <;> simp
  exact ⟨buffer.parserInv (by simp [RxState.beforeHeader]) hp, acceptPreamble_crcInv t s, sender.txInv htx,
    ⟨by simp [RxState.midFrame], by simpa using hack, fun _ => by simp⟩, windowInv_of_idle (by simpa using hc)⟩

theorem forwardNonprotocol_engineInv (b : Byte) {s : State} (h : EngineInv s) :
    EngineInv (forwardNonprotocol b s) := by
  unfold forwardNonprotocol
  split <;> exact h

/-- Between frames, garbage moves the parser to NotPreamble and nothing else (R121, R124). -/
theorem notPreamble_engineInv {s : State} (h : EngineInv s) (hs : s.rxState.midFrame = false) (hc : s.ctx = .idle) :
    EngineInv { s with rxState := .notPreamble } := by
  obtain ⟨hp, -, htx, ht, -⟩ := h
  exact ⟨SameBuffer.parserInv (s := s) ⟨rfl, rfl, rfl, rfl, rfl⟩ rfl hp, crcInv_of_boundary rfl, htx,
    timerInv_congr (s := s) rfl rfl hs.symm rfl ht, windowInv_of_idle hc⟩

theorem endFrame_engineInv (t : Nat) {s : State} (h : EngineInv s) (hc : s.ctx = .idle) :
    EngineInv (endFrame t s) := by
  obtain ⟨hp, -, htx, ⟨-, hack, -⟩, -⟩ := h
  have buffer : SameBuffer s (endFrame t s) := by constructor <;> simp
  have sender : SameSender s (endFrame t s) := by constructor <;> simp
  exact ⟨buffer.parserInv (by simp [RxState.beforeHeader]) hp, crcInv_of_boundary (by simp [RxState.midFrame]),
    sender.txInv htx, ⟨by simp [RxState.midFrame], by simpa using hack, fun _ => by simp⟩,
    windowInv_of_idle (by simpa using hc)⟩

theorem deliver_txInv (p : List Byte) (t : Nat) {s : State} (h : TxInv s) : TxInv (deliver p t s) := by
  rcases deliver_cases p t s with ⟨-, e⟩ | e | e <;> rw [e]
  · exact h
  · exact ackReceived_txInv _ p t h
  · exact nackReceived_txInv _ p t h

theorem deliver_timerInv (p : List Byte) (t : Nat) {s : State} (h : TimerInv s) : TimerInv (deliver p t s) := by
  rcases deliver_cases p t s with ⟨-, e⟩ | e | e <;> rw [e]
  · exact h
  · exact ackReceived_timerInv _ p t h
  · exact nackReceived_timerInv _ p t h

/-- A frame that opens a window is an UNSYNC or a SYNC frame (R132, R201). -/
theorem deliver_windowInv (p : List Byte) (t : Nat) {s : State} (hs : s.rxState = .expectPreamble)
    (hc : s.ctx = .idle) : WindowInv (deliver p t s) := by
  rcases deliver_cases p t s with ⟨hk, -⟩ | e | e
  · exact fun _ => ⟨by simpa using hs, by simpa using hk⟩
  · exact windowInv_of_idle (by simpa [e] using hc)
  · exact windowInv_of_idle (by simpa [e] using hc)

theorem deliver_engineInv (p : List Byte) (t : Nat) {s : State} (h : EngineInv s) (hs : s.rxState = .expectPreamble)
    (hc : s.ctx = .idle) : EngineInv (deliver p t s) := by
  obtain ⟨hp, hcrc, htx, ht, -⟩ := h
  have receiver : SameReceiver s (deliver p t s) := by constructor <;> simp
  exact ⟨receiver.parserInv hp, receiver.crcInv hcrc, deliver_txInv p t htx, deliver_timerInv p t ht,
    deliver_windowInv p t hs hc⟩

/-- A byte inside a frame moves only the parser: the receive side is what is left to show. -/
theorem engineInv_of_midFrame {s t : State} (h : EngineInv s) (hc : s.ctx = .idle) (hp : ParserInv t) (hcrc : CrcInv t)
    (sender : SameSender s t) (hr : t.tmrRx = s.tmrRx) (ha : t.tmrAck = s.tmrAck)
    (hm : t.rxState.midFrame = s.rxState.midFrame) (hctx : t.ctx = s.ctx) : EngineInv t := by
  obtain ⟨-, -, htx, ht, -⟩ := h
  exact ⟨hp, hcrc, sender.txInv htx, timerInv_congr hr ha hm sender.awaitingAck ht,
    windowInv_of_idle (hctx.trans hc)⟩

theorem parsed_engineInv {b : Byte} {t : Nat} {s u : State} (h : EngineInv s) (hc : s.ctx = .idle)
    (hu : Parsed b t s u) : EngineInv u := by
  have ⟨hp, hcrc, _⟩ := h
  cases hu with
  | preamble => exact acceptPreamble_engineInv t h hc
  | garbageNack => exact acceptPreamble_engineInv t (sendFrame_engineInv .nack 0 [codeNotPreamble] h) hc
  | garbage hs =>
    refine forwardNonprotocol_engineInv b (notPreamble_engineInv h ?_ hc)
    rcases hs with hs | hs <;> rw [hs] <;> rfl
  | header hs =>
    refine engineInv_of_midFrame h hc (inExpectHeaderHigh_parserInv b hp) (inExpectHeaderHigh_crcInv b hs hcrc)
      (by constructor <;> simp) (by simp) (by simp) ?_ (by simp)
    rw [inExpectHeaderHigh_rxState, hs]
    split <;> rfl
  | length hs =>
    have announced := rxLc_ne_zero_of_expectHeaderLow hp hs
    exact engineInv_of_midFrame h hc (inExpectHeaderLow_parserInv b hs hp)
      (inExpectHeaderLow_crcInv b hs announced hcrc) (by constructor <;> simp) (by simp) (by simp) (by simp [hs, RxState.midFrame]) (by simp)
  | payload hs =>
    refine engineInv_of_midFrame h hc (storePayloadByte_parserInv b hs hp) (storePayloadByte_crcInv b hs hcrc)
      (by constructor <;> simp) (by simp) (by simp) ?_ (by simp)
    rw [storePayloadByte_rxState, hs]
    split <;> rfl
  | crcHigh hs =>
    exact engineInv_of_midFrame h hc (inExpectCrcHigh_parserInv b hs hp) (inExpectCrcHigh_crcInv b hs hcrc)
      (by constructor <;> simp) (by simp) (by simp) (by simp [hs, RxState.midFrame]) (by simp)
  | badCrc => exact sendFrame_engineInv .nack s.rxSeq [codeBadCrc] (endFrame_engineInv t h hc)
  | frame _ _ p => exact deliver_engineInv p t (endFrame_engineInv t h hc) (by simp) (by simpa using hc)

theorem runTick_engineInv (t : Nat) {s : State} (h : EngineInv s) (hc : s.ctx = .idle) : EngineInv (runTick t s) := by
  obtain ⟨hp, hcrc, htx, ht, -⟩ := h
  have buffer : SameBuffer s (runTick t s) := by constructor <;> simp
  have ⟨hp', hcrc'⟩ : ParserInv (runTick t s) ∧ CrcInv (runTick t s) := by
    rcases runTick_rxState t s with hs | hs
    · have receiver : SameReceiver s (runTick t s) := by constructor <;> simp [hs]
      exact ⟨receiver.parserInv hp, receiver.crcInv hcrc⟩
    · exact ⟨buffer.parserInv (by rw [hs]; rfl) hp, crcInv_of_boundary (by rw [hs]; rfl)⟩
  exact ⟨hp', hcrc', runTick_txInv t htx, runTick_timerInv t ht, windowInv_of_idle (by simpa using hc)⟩

theorem sendSync_engineInv {p : List Byte} (hl : p.length ≤ maxPayload) (t : Nat) {s : State} (h : EngineInv s)
    (hc : s.ctx = .idle) : EngineInv (sendSync p t s) := by
  obtain ⟨hp, hcrc, htx, ht, -⟩ := h
  have receiver : SameReceiver s (sendSync p t s) := by constructor <;> simp
  exact ⟨receiver.parserInv hp, receiver.crcInv hcrc, sendSync_txInv hl t htx, sendSync_timerInv p t ht,
    windowInv_of_idle (by simpa using hc)⟩

theorem closeWindow_engineInv {s : State} (h : EngineInv s) : EngineInv (closeWindow s) := by
  rw [closeWindow_eq]
  obtain ⟨hp, hcrc, htx, ht, -⟩ := h
  exact ⟨hp, hcrc, htx, ht, windowInv_of_idle rfl⟩

/-! ### The state after init -/

theorem runInit_rxLen_le (c : Cfg) (s : State) : (runInit c s).rxLen ≤ maxPayload :=
  Nat.le_of_lt_succ (Config.freeRxLen s.draws).isLt

theorem runInit_rxCount_le (c : Cfg) (s : State) : (runInit c s).rxCount ≤ maxPayload :=
  Nat.le_of_lt_succ (Config.freeRxCount s.draws).isLt

/-- Init leaves the invariant whatever held before: what it leaves unspecified is within its limits (R55, R250). -/
theorem runInit_engineInv {c : Cfg} (hsize : maxPayload ≤ c.rxBufSize) (s : State) : EngineInv (runInit c s) := by
  have hlen := runInit_rxLen_le c s
  have hcount := runInit_rxCount_le c s
  refine ⟨⟨hsize, runInit_rxBuf_wf c s, by simp, hlen, hcount, ?_⟩, crcInv_of_boundary rfl, ?_, ?_,
    windowInv_of_idle rfl⟩
  · simp [RxState.inTrailer]
  · simp [TxInv]
  · simp [TimerInv, RxState.midFrame]

/-! ### Every step -/

theorem action_engineInv {i : Instr} {s u : State} (hi : formatOf i = .stimulus) (h : EngineInv s)
    (hu : Action i s u) : EngineInv u := by
  cases hu with
  | byte _ _ hr hp => exact parsed_engineInv h hr.2 hp
  | tick t hr => exact runTick_engineInv t h hr.2
  | sendSync p t hr _ hp => exact sendSync_engineInv hp t h hr.2
  | cbReturn => exact closeWindow_engineInv h
  | init c _ hc => exact runInit_engineInv hc s
  | busy | invalidState => exact h
  | sendUnsync p => exact sendFrame_engineInv .unsync 0 p h
  | reply p => exact sendFrame_engineInv .ack s.rxSeq p h
  | preambleRow | openUnsync | openSync | ack | nack => cases hi
  | nackCode _ _ _ _ hrow => rcases hrow with rfl | rfl | rfl | rfl | rfl <;> cases hi

theorem exec_engineInv {i : Instr} {s t : State} (hi : formatOf i = .stimulus) (h : EngineInv s)
    (ht : exec i s = .next t) : EngineInv t := by
  rcases exec_next ht with ⟨f, rfl⟩ | ⟨u, r, hu, rfl⟩
  · exact h
  · exact action_engineInv (u := u) hi h hu

theorem formatOf_decodeStimulus (c : Stimulus) : formatOf (decodeStimulus c) = .stimulus := by
  unfold decodeStimulus
  split_ifs <;> rfl

/-- Settles O51: a step runs a stimulus, and every stimulus keeps each part of the invariant. -/
theorem everyStepKeepsTheInvariant : Obligations.EveryStepKeepsTheInvariant := by
  intro s t h ht
  cases hp : s.pending with
  | nil =>
    rw [step_of_pending_nil hp] at ht
    cases ht
    exact h
  | cons c rest =>
    rw [step_of_pending_cons hp] at ht
    exact exec_engineInv (s := { s with pending := rest }) (formatOf_decodeStimulus c) h ht

/-! ### The mirror of the timers in `PRIM` -/

/-- A reschedule at the instant both records were updated leaves the mirror (R54, R151). -/
theorem reschedule_primMirrors {t : Nat} {s : State} (hr : s.tmrRx.last = t) (ha : s.tmrAck.last = t) :
    PrimMirrors (reschedule t s) :=
  primMirrors_of_reschedule (t := t) hr ha rfl

theorem ackTimeoutTrigger_primMirrors (t : Nat) {s : State} (h : PrimMirrors s) :
    PrimMirrors (ackTimeoutTrigger t s) := by
  rcases ackTimeoutTrigger_cases t s with ⟨-, e⟩ | ⟨-, -, e⟩ | ⟨-, -, e⟩ <;> rw [e]
  · exact h
  · exact h
  · exact muxSet_primMirrors ..

theorem ackReceived_primMirrors (q : Seq) (p : List Byte) (t : Nat) {s : State} (h : PrimMirrors s) :
    PrimMirrors (ackReceived q p t s) := by
  rcases ackReceived_cases q p t s with ⟨-, e⟩ | ⟨-, -, e⟩ <;> rw [e]
  · exact h
  · exact muxCancel_primMirrors .ack t s

theorem nackReceived_primMirrors (q : Seq) (p : List Byte) (t : Nat) {s : State} (h : PrimMirrors s) :
    PrimMirrors (nackReceived q p t s) := by
  obtain ⟨d, e | ⟨-, -, e⟩⟩ := nackReceived_cases q p t s <;> rw [e]
  · exact h
  · exact ackTimeoutTrigger_primMirrors t (muxCancel_primMirrors ..)

theorem deliver_primMirrors (p : List Byte) (t : Nat) {s : State} (h : PrimMirrors s) :
    PrimMirrors (deliver p t s) := by
  rcases deliver_cases p t s with ⟨-, e⟩ | e | e <;> rw [e]
  · exact h
  · exact ackReceived_primMirrors _ p t h
  · exact nackReceived_primMirrors _ p t h

/-- The handlers of a tick leave both records updated at its instant. -/
theorem runTick_primMirrors (t : Nat) (s : State) : PrimMirrors (runTick t s) := by
  have hr := afterRxHandler_tmrRx_last t s
  have ha : (afterRxHandler t s).tmrAck.last = t := by simp [afterRxHandler_tmrAck]
  rw [runTick_eq_afterRxHandler]
  split
  · rcases ackTimeoutTrigger_cases t (afterRxHandler t s) with ⟨-, e⟩ | ⟨-, -, e⟩ | ⟨-, -, e⟩ <;> rw [e]
    · exact reschedule_primMirrors hr ha
    · exact reschedule_primMirrors hr ha
    · exact reschedule_primMirrors (by simp) (by simp)
  · exact reschedule_primMirrors hr ha

theorem acceptPreamble_primMirrors (t : Nat) (s : State) : PrimMirrors (acceptPreamble t s) :=
  muxSet_primMirrors .rx s.cfg.rxTimeout t s

theorem endFrame_primMirrors (t : Nat) (s : State) : PrimMirrors (endFrame t s) :=
  muxCancel_primMirrors .rx t s

theorem parsed_primMirrors {b : Byte} {t : Nat} {s u : State} (h : PrimMirrors s) (hu : Parsed b t s u) :
    PrimMirrors u := by
  cases hu with
  | preamble | garbageNack => exact acceptPreamble_primMirrors ..
  | garbage => exact primMirrors_congr (by simp) (by simp) (by simp) h
  | header | length | payload | crcHigh => exact primMirrors_congr (by simp) (by simp) (by simp) h
  | badCrc => exact primMirrors_congr (by simp) (by simp) (by simp) (endFrame_primMirrors t s)
  | frame _ _ p => exact deliver_primMirrors p t (endFrame_primMirrors t s)

theorem action_primMirrors {i : Instr} {s u : State} (h : PrimMirrors s) (hidle : isInit i = true → s.prim = .idle)
    (hu : Action i s u) : PrimMirrors u := by
  cases hu with
  | byte _ _ _ hp | preambleRow _ _ hp => exact parsed_primMirrors h hp
  | tick t => exact runTick_primMirrors t s
  | sendSync => exact muxSet_primMirrors ..
  | busy | invalidState => exact h
  | sendUnsync | reply | cbReturn => exact primMirrors_congr (by simp) (by simp) (by simp) h
  | init => simpa [PrimMirrors] using hidle rfl
  | openUnsync | openSync => exact primMirrors_congr (by simp) (by simp) (by simp) h
  | ack q l t p => exact ackReceived_primMirrors q p t (s := latchHeader .ack q l s) h
  | nack q l t p => exact nackReceived_primMirrors q p t (s := latchHeader .nack q l s) h
  | nackCode _ c t => exact nackReceived_primMirrors s.rxSeq [c] t h

/-- Settles O52: every action ends in a reschedule or leaves the timers and `PRIM` alone; init disables both timers. -/
theorem everyInstructionKeepsThePrimMirror : Obligations.EveryInstructionKeepsThePrimMirror := by
  intro i s t h hidle ht
  rcases exec_next ht with ⟨f, rfl⟩ | ⟨u, r, hu, rfl⟩
  · exact h
  · exact action_primMirrors (u := u) h hidle hu

/-! ### The sequence number -/

/-- The number moves on as the outstanding packet is settled, or it stays and the packet stays outstanding (R43,
R183). -/
def SequenceStep (s t : State) : Prop :=
  (s.awaitingAck = true ∧ t.awaitingAck = false ∧ t.txSequence = nextSeq s.txSequence) ∨
  (t.txSequence = s.txSequence ∧ (s.awaitingAck = true → t.awaitingAck = true))

theorem sequenceStep_of_same {s t : State} (hq : t.txSequence = s.txSequence) (ha : t.awaitingAck = s.awaitingAck) :
    SequenceStep s t :=
  .inr ⟨hq, fun h => ha.trans h⟩

theorem sequenceStep_congr {s s' t t' : State} (hs : s'.txSequence = s.txSequence)
    (hs' : s'.awaitingAck = s.awaitingAck) (ht : t'.txSequence = t.txSequence) (ht' : t'.awaitingAck = t.awaitingAck)
    (h : SequenceStep s' t') : SequenceStep s t := by
  simpa only [SequenceStep, hs, hs', ht, ht'] using h

theorem ackTimeoutTrigger_sequenceStep (t : Nat) (s : State) : SequenceStep s (ackTimeoutTrigger t s) := by
  rcases ackTimeoutTrigger_cases t s with ⟨-, e⟩ | ⟨ha, -, e⟩ | ⟨-, -, e⟩ <;> rw [e]
  · exact sequenceStep_of_same rfl rfl
  · exact .inl ⟨ha, by simp, by simp⟩
  · exact sequenceStep_of_same (by simp) (by simp)

theorem ackReceived_sequenceStep (q : Seq) (p : List Byte) (t : Nat) (s : State) :
    SequenceStep s (ackReceived q p t s) := by
  rcases ackReceived_cases q p t s with ⟨-, e⟩ | ⟨ha, -, e⟩ <;> rw [e]
  · exact sequenceStep_of_same rfl rfl
  · exact .inl ⟨ha, by simp, by simp⟩

theorem nackReceived_sequenceStep (q : Seq) (p : List Byte) (t : Nat) (s : State) :
    SequenceStep s (nackReceived q p t s) := by
  obtain ⟨d, e | ⟨-, -, e⟩⟩ := nackReceived_cases q p t s <;> rw [e]
  · exact sequenceStep_of_same rfl rfl
  · exact sequenceStep_congr (by simp) (by simp) rfl rfl
      (ackTimeoutTrigger_sequenceStep t (muxCancel .ack t { s with draws := d }))

theorem deliver_sequenceStep (p : List Byte) (t : Nat) (s : State) : SequenceStep s (deliver p t s) := by
  rcases deliver_cases p t s with ⟨-, e⟩ | e | e <;> rw [e]
  · exact sequenceStep_of_same (by simp) (by simp)
  · exact ackReceived_sequenceStep ..
  · exact nackReceived_sequenceStep ..

theorem runTick_sequenceStep (t : Nat) (s : State) : SequenceStep s (runTick t s) := by
  obtain ⟨u, e, hu⟩ := runTick_eq t s
  have handled : SequenceStep s u := by
    rcases hu with rfl | rfl | rfl | rfl
    · exact sequenceStep_of_same rfl rfl
    · exact sequenceStep_of_same (by simp) (by simp)
    · exact sequenceStep_congr (by simp) (by simp) rfl rfl (ackTimeoutTrigger_sequenceStep ..)
    · exact sequenceStep_congr (by simp) (by simp) rfl rfl (ackTimeoutTrigger_sequenceStep ..)
  rw [e]
  exact sequenceStep_congr rfl rfl (by simp) (by simp) handled

theorem parsed_sequenceStep {b : Byte} {t : Nat} {s u : State} (hu : Parsed b t s u) : SequenceStep s u := by
  cases hu with
  | frame _ _ p => exact sequenceStep_congr (by simp) (by simp) rfl rfl (deliver_sequenceStep p t (endFrame t s))
  | preamble | garbageNack | garbage | header | length | payload | crcHigh | badCrc =>
    exact sequenceStep_of_same (by simp) (by simp)

theorem action_sequenceStep {i : Instr} {s u : State} (hi : isInit i = false) (hu : Action i s u) :
    SequenceStep s u := by
  cases hu with
  | byte _ _ _ hp | preambleRow _ _ hp => exact parsed_sequenceStep hp
  | tick t => exact runTick_sequenceStep t s
  | sendSync => exact .inr ⟨by simp, fun _ => by simp⟩
  | busy | invalidState | sendUnsync | reply | cbReturn | openUnsync | openSync =>
    exact sequenceStep_of_same (by simp) (by simp)
  | init => cases hi
  | ack q l t p => exact ackReceived_sequenceStep q p t (latchHeader .ack q l s)
  | nack q l t p => exact nackReceived_sequenceStep q p t (latchHeader .nack q l s)
  | nackCode => exact nackReceived_sequenceStep ..

/-- What an accepted init, its only action, leaves (R250). -/
theorem action_of_isInit {i : Instr} {s u : State} (hi : isInit i = true) (hu : Action i s u) :
    ∃ c, i = .init c ∧ s.fault = none ∧ u = runInit c s := by
  cases hu with
  | init c hf => exact ⟨c, rfl, hf, rfl⟩
  | nackCode _ _ _ _ hrow => rcases hrow with rfl | rfl | rfl | rfl | rfl <;> cases hi
  | _ => cases hi

/-- Settles O55: the retry trigger and a matching ACK settle the packet, and no other action moves the number. -/
theorem sequenceAdvancesOnlyWhenSettled : Obligations.SequenceAdvancesOnlyWhenSettled := by
  intro i s t ht
  rcases exec_next ht with ⟨f, rfl⟩ | ⟨u, r, hu, rfl⟩
  · exact .inr (sequenceStep_of_same rfl rfl)
  · cases hi : isInit i
    · exact .inr (action_sequenceStep (u := u) hi hu)
    · obtain ⟨c, -, hf, rfl⟩ := action_of_isInit hi hu
      exact .inl ⟨rfl, hf, rfl⟩

/-! ### The configuration -/

theorem parsed_cfg {b : Byte} {t : Nat} {s u : State} (hu : Parsed b t s u) : u.cfg = s.cfg := by
  cases hu <;> simp

theorem action_cfg {i : Instr} {s u : State} (hi : isInit i = false) (hu : Action i s u) : u.cfg = s.cfg := by
  cases hu with
  | byte _ _ _ hp | preambleRow _ _ hp => exact parsed_cfg hp
  | init => cases hi
  | busy | invalidState => rfl
  | tick | sendSync | sendUnsync | reply | cbReturn | openUnsync | openSync | ack | nack | nackCode => simp

/-- Settles O57: the field frames of the operations, one per action; init takes the configuration it carries. -/
theorem configurationIsWrittenByInitOnly : Obligations.ConfigurationIsWrittenByInitOnly := by
  refine ⟨fun i s t hi ht => ?_, fun c s t ht => ?_⟩ <;>
    rcases exec_next ht with ⟨f, rfl⟩ | ⟨u, r, hu, rfl⟩
  · rfl
  · exact action_cfg (u := u) hi hu
  · exact .inr rfl
  · cases hu with
    | init => exact .inl rfl
    | nackCode _ _ _ _ hrow => simp at hrow

/-! ### The mode -/

/-- The new state is in a window, and a PKTRX is the last event added to the trace (R201). -/
def OpensWindow (s t : State) : Prop :=
  t.ctx = .inRxCallback ∧ ∃ kind seq p l, t.trace = s.trace ++ l ++ [.pktRx kind seq p]

theorem openWindow_opensWindow (k : Kind) (q : Seq) (p : List Byte) {s t : State} (h : s.trace <+: t.trace) :
    OpensWindow s (openWindow k q p t) := by
  obtain ⟨l, hl⟩ := h
  exact ⟨by simp, k, q, p, l, by simp [← hl]⟩

theorem deliver_mode (p : List Byte) (t : Nat) {s v : State} (h : s.trace <+: v.trace) :
    (deliver p t v).ctx = v.ctx ∨ OpensWindow s (deliver p t v) := by
  rcases deliver_cases p t v with ⟨-, e⟩ | e | e <;> rw [e]
  · exact .inr (openWindow_opensWindow _ _ p h)
  · exact .inl (by simp)
  · exact .inl (by simp)

theorem parsed_mode {b : Byte} {t : Nat} {s u : State} (hu : Parsed b t s u) :
    u.ctx = s.ctx ∨ OpensWindow s u := by
  cases hu with
  | frame _ _ p => simpa using deliver_mode p t (endFrame_trace_prefix t s)
  | preamble | garbageNack | garbage | header | length | payload | crcHigh | badCrc => exact .inl (by simp)

theorem action_mode {i : Instr} {s u : State} (hu : Action i s u) :
    u.ctx = s.ctx ∨ OpensWindow s u ∨ (u.ctx = .idle ∧ (i = .cbReturn ∨ isInit i = true)) := by
  cases hu with
  | byte _ _ _ hp | preambleRow _ _ hp => exact (parsed_mode hp).imp_right .inl
  | openUnsync q l p => exact .inr (.inl (openWindow_opensWindow .unsync q p (by simp)))
  | openSync q l p => exact .inr (.inl (openWindow_opensWindow .sync q p (by simp)))
  | cbReturn => exact .inr (.inr ⟨by simp [closeWindow_eq], .inl rfl⟩)
  | init => exact .inr (.inr ⟨rfl, .inr rfl⟩)
  | tick | busy | sendSync | sendUnsync | invalidState | reply | ack | nack | nackCode => exact .inl (by simp)

/-- Settles O58: the mode stays, or a window opens with its PKTRX, or cb_return or init leaves it idle. -/
theorem modeChangesOnlyByItsRules : Obligations.ModeChangesOnlyByItsRules := by
  intro i s t ht
  rcases exec_next ht with ⟨f, rfl⟩ | ⟨u, r, hu, rfl⟩
  · exact ⟨fun h h' => by simp [h] at h', fun h h' => by simp [h] at h'⟩
  · rcases action_mode hu with hc | ⟨hopen, htrace⟩ | ⟨hidle, hrule⟩
    · exact ⟨fun h h' => by simp [hc, h] at h', fun h h' => by simp [hc, h] at h'⟩
    · exact ⟨fun _ _ => htrace, fun _ h' => by simp [hopen] at h'⟩
    · exact ⟨fun _ h' => by simp [hidle] at h', fun _ _ => hrule⟩

/-! ### Init and reset -/

/-- An init with a large enough buffer writes its registers (R250, R251). -/
theorem exec_init_eq {s : State} {c : Cfg} (hf : s.fault = none) (hc : maxPayload ≤ c.rxBufSize) :
    exec (.init c) s = .next { runInit c s with result := none } := by
  rw [exec, execInit, unlessFaulted_pass hf, if_neg (Nat.not_lt.2 hc)]
  rfl

theorem runInit_txPayload_length (c : Cfg) (s : State) : (runInit c s).txPayload.length ≤ maxPayload :=
  List.length_take_le ..

/-- The free contents of `TX_FRAME` have the length of some frame: 4 to 773 bytes (R42). -/
theorem runInit_txFrame_length (c : Cfg) (s : State) :
    4 ≤ (runInit c s).txFrame.length ∧ (runInit c s).txFrame.length ≤ maxPayload + 5 := by
  have parts : (runInit c s).txFrame.length =
      4 + ((Config.freeTxFrameTail s.draws).take (maxPayload + 1)).length := by
    simp [runInit, leaveUnspecified]
  have tail := List.length_take_le (maxPayload + 1) (Config.freeTxFrameTail s.draws)
  omega

/-- Settles O18: the fields init does not write, and the limits of its free values. -/
theorem initLeavesHostSideAlone : Obligations.InitLeavesHostSideAlone := by
  intro s c hf hc
  obtain ⟨hmin, hmax⟩ := runInit_txFrame_length c s
  exact ⟨_, exec_init_eq hf hc, rfl, rfl, rfl, rfl, runInit_rxLen_le c s, runInit_rxCount_le c s,
    runInit_txPayload_length c s, hmin, hmax, fun a => runInit_bufByte c s a⟩

/-- Settles O19: each value is the field's own in `State.reset`. -/
theorem resetHoldsTheSpecsValues : Obligations.ResetHoldsTheSpecsValues := by
  exact ⟨rfl, rfl, rfl, rfl, rfl, rfl, rfl, rfl, rfl, rfl, rfl, rfl, rfl, rfl, rfl, rfl⟩

theorem reset_engineInv : EngineInv State.reset :=
  ⟨⟨by decide, reset_rxBuf_wf, by simp [State.reset], by decide, by decide, by decide, by decide, by decide⟩,
    crcInv_of_boundary rfl, by decide, by decide, windowInv_of_idle rfl⟩

theorem reset_primMirrors : PrimMirrors State.reset := by decide

/-- Settles O20: neither the invariant nor the mirror reads whether init has happened. -/
theorem resetMeetsTheInvariants : Obligations.ResetMeetsTheInvariants :=
  ⟨reset_engineInv, reset_primMirrors, reset_engineInv, reset_primMirrors⟩

end Sys2Proof.Machine

/-! ## The receive buffer: every access is in bounds, and who writes it

That a stimulus does not stop the machine is composed from the checks it passes: each shared check of Machine/Ops.lean
stops only where what it guards stops, which leaves the two accesses to the buffer: a payload byte stored (R127) and the
payload read (R200). What a stimulus does to the bytes of the buffer is one of three effects, read off its
`Action`. -/

namespace Sys2Proof.Machine

/-! ### What cannot stop the machine -/

/-- The outcome is a next state or a refusal, and no stop of the machine. -/
def NeverStops (o : Outcome) : Prop := ∀ f, o ≠ .fault f

theorem finish_neverStops {r : Option Result} {s : State} : NeverStops (finish r s) := fun _ => nofun

theorem raise_neverStops {f : EngineFault} {s : State} : NeverStops (raise f s) := fun _ => nofun

theorem refused_neverStops {r : Refusal} : NeverStops (.refused r) := fun _ => nofun

theorem NeverStops.ite {c : Prop} [Decidable c] {k l : Outcome} (hk : NeverStops k) (hl : NeverStops l) :
    NeverStops (if c then k else l) := by
  split
  · exact hk
  · exact hl

theorem unlessFaulted_neverStops (s : State) {k : Outcome} (h : NeverStops k) : NeverStops (unlessFaulted s k) := by
  unfold unlessFaulted
  split
  · exact refused_neverStops
  · exact h

theorem whenAccepting_neverStops (s : State) {k : Outcome} (h : NeverStops k) : NeverStops (whenAccepting s k) :=
  unlessFaulted_neverStops s (h.ite refused_neverStops)

theorem whenIdle_neverStops (s : State) {k : Outcome} (h : NeverStops k) : NeverStops (whenIdle s k) :=
  whenAccepting_neverStops s (h.ite raise_neverStops)

/-! ### The two accesses to the buffer are in bounds -/

/-- A payload no longer than the buffer is read without a stop (R61, R63). -/
theorem withPayload_neverStops {s : State} (hlen : s.rxLen ≤ s.cfg.rxBufSize) {k : List Byte → Outcome}
    (h : ∀ p, NeverStops (k p)) : NeverStops (withPayload s k) := by
  rw [withPayload_ok (rxPayload_eq s hlen)]
  exact h _

theorem rxLen_le_rxBufSize {s : State} (h : ParserInv s) : s.rxLen ≤ s.cfg.rxBufSize := by
  obtain ⟨hsize, -, -, hlen, -⟩ := h
  exact Nat.le_trans hlen hsize

/-- A payload byte awaited has its place in the buffer: `RX_COUNT` is below `RX_LEN` (R61, R127). -/
theorem rxCount_lt_rxBufSize {s : State} (h : ParserInv s) (hs : s.rxState = .receivingData) :
    s.rxCount < s.cfg.rxBufSize := by
  have hlen := rxLen_le_rxBufSize h
  obtain ⟨-, -, -, -, -, -, hlt, -⟩ := h
  exact Nat.lt_of_lt_of_le (hlt hs) hlen

theorem latchHeader_rxLen_le (k : Kind) (q : Seq) (l : LenClass) (s : State) :
    (latchHeader k q l s).rxLen ≤ s.rxLen := by
  rw [latchHeader_rxLen]
  split
  · exact Nat.zero_le _
  · exact Nat.le_refl _

/-- A header row reads the payload of the frame it stands for within the buffer (R125, R200). -/
theorem headerRow_neverStops (k : Kind) (q : Seq) (l : LenClass) {s : State} (h : ParserInv s)
    (u : List Byte → State) :
    NeverStops (whenIdle s (withPayload (latchHeader k q l s) fun p => finish none (u p))) :=
  whenIdle_neverStops s <| withPayload_neverStops
    (Nat.le_trans (latchHeader_rxLen_le k q l s) (rxLen_le_rxBufSize h)) fun _ => finish_neverStops

theorem parseByte_neverStops (b : Byte) (t : Nat) {s : State} (h : ParserInv s) : NeverStops (parseByte b t s) := by
  cases hs : s.rxState <;> simp only [parseByte, hs]
  case receivingData =>
    rw [inReceivingData, if_pos (rxCount_lt_rxBufSize h hs)]
    exact finish_neverStops
  case expectCrcLow =>
    have hlen : (endFrame t s).rxLen ≤ (endFrame t s).cfg.rxBufSize := by simpa using rxLen_le_rxBufSize h
    exact (withPayload_neverStops hlen fun _ => finish_neverStops).ite finish_neverStops
  case expectPreamble | notPreamble | expectHeaderHigh | expectHeaderLow | expectCrcHigh => exact finish_neverStops

theorem execReceiveByte_neverStops (b : Byte) (t : Nat) {s : State} (h : ParserInv s) :
    NeverStops (execReceiveByte b t s) :=
  whenIdle_neverStops s (parseByte_neverStops b t h)

theorem execNackCode_neverStops {c : Byte} {t : Nat} {s : State} : NeverStops (execNackCode c t s) :=
  whenIdle_neverStops s finish_neverStops

/-- No instruction, the rows decoded on the wire among them, leaves the buffer's bounds. -/
theorem exec_neverStops (i : Instr) {s : State} (h : ParserInv s) : NeverStops (exec i s) := by
  cases i with
  | receiveByte b t => exact execReceiveByte_neverStops b t h
  | preamble t =>
    rw [exec, execPreamble_eq]
    exact execReceiveByte_neverStops preambleByte t h
  | tick => exact whenIdle_neverStops s finish_neverStops
  | transmit =>
    exact whenIdle_neverStops s (raise_neverStops.ite (finish_neverStops.ite finish_neverStops))
  | replyAck =>
    exact whenAccepting_neverStops s ((raise_neverStops.ite finish_neverStops).ite finish_neverStops)
  | cbReturn => exact whenAccepting_neverStops s (finish_neverStops.ite raise_neverStops)
  | init => exact unlessFaulted_neverStops s (raise_neverStops.ite finish_neverStops)
  | reserved110 | reserved111 => exact refused_neverStops
  | hdrUnsync q l | hdrSync q l | hdrAck q l | hdrNack q l => exact headerRow_neverStops _ q l h _
  | nackNotPreamble | nackBadCrc | nackRxTimeout | nackNotReady | nackOther => exact execNackCode_neverStops

/-- Settles O53: a step runs a stimulus or holds the state, and from the parser's part of the invariant no instruction
reads or writes beyond the buffer. -/
theorem noStepFaults : Obligations.NoStepFaults := by
  rintro s f ⟨hparser, -⟩
  cases hp : s.pending with
  | nil => rw [step_of_pending_nil hp]; exact nofun
  | cons c rest =>
    rw [step_of_pending_cons hp]
    exact exec_neverStops (s := { s with pending := rest }) (decodeStimulus c) hparser f

/-! ### What an instruction does to the bytes of the buffer -/

/-- The buffer of `t` holds what that of `s` holds. -/
structure SameBytes (s t : State) : Prop where
  rxBuf : t.rxBuf = s.rxBuf
  rxBufFill : t.rxBufFill = s.rxBufFill

theorem SameBytes.bufByte {s t : State} (h : SameBytes s t) (a : Nat) : bufByte t a = bufByte s a :=
  bufByte_congr h.rxBuf h.rxBufFill a

theorem SameBytes.wf {s t : State} (h : SameBytes s t) (hs : Memory.wf s.rxBufFill s.rxBuf = true) :
    Memory.wf t.rxBufFill t.rxBuf = true := by
  rwa [h.rxBuf, h.rxBufFill]

/-- The three effects on the buffer: none; a payload byte stored at `RX_COUNT` by a received byte (R127); the buffer
that init brings (R250). -/
inductive BufferEffect (i : Instr) (s t : State) : Prop where
  | kept : SameBytes s t → BufferEffect i s t
  | stored (b : Byte) : takesByte i = true → s.rxState = .receivingData → SameBytes (storePayloadByte b s) t →
      BufferEffect i s t
  | brought (c : Cfg) : isInit i = true → SameBytes (runInit c s) t → BufferEffect i s t

theorem parsed_bufferEffect {i : Instr} {b : Byte} {t : Nat} {s u : State} (hi : takesByte i = true)
    (hu : Parsed b t s u) : BufferEffect i s u := by
  cases hu with
  | payload hs => exact .stored b hi hs ⟨rfl, rfl⟩
  | preamble | garbageNack | garbage | header | length | crcHigh | badCrc | frame =>
    exact .kept (by constructor <;> simp)

theorem action_bufferEffect {i : Instr} {s u : State} (hu : Action i s u) : BufferEffect i s u := by
  cases hu with
  | byte _ _ _ hp | preambleRow _ _ hp => exact parsed_bufferEffect rfl hp
  | init c => exact .brought c rfl ⟨rfl, rfl⟩
  | busy | invalidState => exact .kept ⟨rfl, rfl⟩
  | tick | sendSync | sendUnsync | reply | cbReturn | openUnsync | openSync | ack | nack | nackCode =>
    exact .kept (by constructor <;> simp)

theorem exec_bufferEffect {i : Instr} {s t : State} (h : exec i s = .next t) : BufferEffect i s t := by
  rcases exec_next h with ⟨f, rfl⟩ | ⟨u, r, hu, rfl⟩
  · exact .kept ⟨rfl, rfl⟩
  · cases action_bufferEffect hu with
    | kept e => exact .kept ⟨e.rxBuf, e.rxBufFill⟩
    | stored b hi hs e => exact .stored b hi hs ⟨e.rxBuf, e.rxBufFill⟩
    | brought c hi e => exact .brought c hi ⟨e.rxBuf, e.rxBufFill⟩

theorem storePayloadByte_rxBuf_wf (b : Byte) {s : State} (h : Memory.wf s.rxBufFill s.rxBuf = true) :
    Memory.wf (storePayloadByte b s).rxBufFill (storePayloadByte b s).rxBuf = true := by
  rw [storePayloadByte_rxBufFill, storePayloadByte_rxBuf]
  exact Memory.wf_write _ _ _ _ h

/-- Every effect on the buffer keeps the canonical form. -/
theorem BufferEffect.wf {i : Instr} {s t : State} (h : BufferEffect i s t)
    (hs : Memory.wf s.rxBufFill s.rxBuf = true) : Memory.wf t.rxBufFill t.rxBuf = true := by
  cases h with
  | kept e => exact e.wf hs
  | stored b _ _ e => exact e.wf (storePayloadByte_rxBuf_wf b hs)
  | brought c _ e => exact e.wf (runInit_rxBuf_wf c s)

/-- Apart from init, a byte changes only where a received byte is stored. -/
theorem BufferEffect.bufByte_eq {i : Instr} {s t : State} (h : BufferEffect i s t) (hi : isInit i = false) {a : Nat}
    (ha : takesByte i = false ∨ s.rxState ≠ .receivingData ∨ a ≠ s.rxCount) : bufByte t a = bufByte s a := by
  cases h with
  | kept e => exact e.bufByte a
  | stored b htakes hs e =>
    have elsewhere : a ≠ s.rxCount := by simpa [htakes, hs] using ha
    rw [e.bufByte, storePayloadByte_bufByte, if_neg elsewhere]
  | brought c hinit => simp [hi] at hinit

theorem isInit_of_takesByte {i : Instr} (h : takesByte i = true) : isInit i = false := by
  cases i with
  | init => cases h
  | _ => rfl

/-- Settles O59: each instruction has one of the three effects on the buffer, of which only init brings a new one and
only a received byte stores. -/
theorem bufferIsWrittenAtRxCountOnly : Obligations.BufferIsWrittenAtRxCountOnly :=
  ⟨fun _ _ _ hs h => (exec_bufferEffect h).wf hs,
    fun _ _ _ hi htakes h _ => (exec_bufferEffect h).bufByte_eq hi (.inl htakes),
    fun _ _ _ htakes h _ ha => (exec_bufferEffect h).bufByte_eq (isInit_of_takesByte htakes) (.inr ha)⟩

end Sys2Proof.Machine

/-! ## The encoding: header byte, length fields, decoder and encoder

The fields of a header byte are read by arithmetic on its value, and the two directions of the correspondence follow. Each
format of the decoder then has one lemma: what it decodes is an instruction of the table that has the word as its own. -/

namespace Sys2Proof.Machine

/-! ### The header byte -/

@[simp] theorem kindOfCode_code (k : Kind) : kindOfCode k.code = k := by cases k <;> rfl

theorem headerByte_toNat (kind : Kind) (seq : Seq) (lc : LenClass) :
    (headerByte kind seq lc).toNat = kind.code.toNat * 64 + seq.toNat * 4 + lc.toNat := by
  rw [headerByte, BitVec.toNat_append, BitVec.toNat_append, ← Nat.shiftLeft_add_eq_or_of_lt lc.isLt,
    ← Nat.shiftLeft_add_eq_or_of_lt seq.isLt, Nat.shiftLeft_eq, Nat.shiftLeft_eq]
  omega

theorem headerKind_code (b : Byte) : (headerKind b).code = b.extractLsb' 6 2 := code_kindOfCode _

theorem headerKind_code_toNat (b : Byte) : (headerKind b).code.toNat = b.toNat / 64 := by
  have := b.isLt
  rw [headerKind_code, BitVec.extractLsb'_toNat, Nat.shiftRight_eq_div_pow]
  omega

theorem headerSeq_toNat (b : Byte) : (headerSeq b).toNat = b.toNat / 4 % 16 := by
  rw [headerSeq, BitVec.extractLsb'_toNat, Nat.shiftRight_eq_div_pow]

theorem headerLen_toNat (b : Byte) : (headerLen b).toNat = b.toNat % 4 := by
  rw [headerLen, BitVec.extractLsb'_toNat, Nat.shiftRight_zero]

@[simp] theorem headerKind_headerByte (kind : Kind) (seq : Seq) (lc : LenClass) :
    headerKind (headerByte kind seq lc) = kind := by
  have code : (headerKind (headerByte kind seq lc)).code = kind.code := by
    have := seq.isLt
    have := lc.isLt
    apply BitVec.eq_of_toNat_eq
    rw [headerKind_code_toNat, headerByte_toNat]
    omega
  rw [← kindOfCode_code (headerKind _), code, kindOfCode_code]

@[simp] theorem headerSeq_headerByte (kind : Kind) (seq : Seq) (lc : LenClass) :
    headerSeq (headerByte kind seq lc) = seq := by
  have := seq.isLt
  have := lc.isLt
  apply BitVec.eq_of_toNat_eq
  rw [headerSeq_toNat, headerByte_toNat]
  omega

@[simp] theorem headerLen_headerByte (kind : Kind) (seq : Seq) (lc : LenClass) :
    headerLen (headerByte kind seq lc) = lc := by
  have := lc.isLt
  apply BitVec.eq_of_toNat_eq
  rw [headerLen_toNat, headerByte_toNat]
  omega

/-- Settles O1: the value of each field of a header byte, and the value of a packed one. -/
theorem headerByteLayout : Obligations.HeaderByteLayout :=
  ⟨fun b => ⟨headerKind_code_toNat b, headerSeq_toNat b, headerLen_toNat b⟩, headerByte_toNat, rfl, rfl, rfl, rfl⟩

/-- Settles O2: packing inverts the reading of the three fields, and each field is read back from a packed byte. -/
theorem headerBytesAndTriplesCorrespond : Obligations.HeaderBytesAndTriplesCorrespond :=
  ⟨headerByte_of_fields, fun kind seq lc =>
    ⟨headerKind_headerByte kind seq lc, headerSeq_headerByte kind seq lc, headerLen_headerByte kind seq lc⟩⟩

/-! ### The length fields -/

/-- The length-class and the LenByte of a payload that is not empty (R85). -/
theorem lengthFields_of_pos {n : Nat} (h : 1 ≤ n) :
    lengthFields n = (BitVec.ofNat 2 ((n - 1) / 256 + 1), [BitVec.ofNat 8 (n - 1)]) := by
  rw [lengthFields, if_neg (Nat.ne_of_gt h), Nat.shiftRight_eq_div_pow]

/-- Settles O3: on 1..768 the class is not cut off by its two bits, so quotient and remainder by 256 are both kept; the
other direction is `lengthFields_assembleLength`. -/
theorem lengthFieldsInvertAssembly : Obligations.LengthFieldsInvertAssembly := by
  refine ⟨rfl, fun n hmin hmax => ⟨_, _, lengthFields_of_pos hmin, ?_⟩, fun lc lb hlc =>
    ⟨rfl, assembleLength_pos lc lb, assembleLength_le lc lb, lengthFields_assembleLength hlc lb⟩⟩
  have hclass : (BitVec.ofNat 2 ((n - 1) / 256 + 1)).toNat = (n - 1) / 256 + 1 := by
    rw [BitVec.toNat_ofNat]; omega
  have hbyte : (BitVec.ofNat 8 (n - 1)).toNat = (n - 1) % 256 := BitVec.toNat_ofNat ..
  refine ⟨fun h => ?_, hclass, hbyte, ?_⟩
  · rw [h] at hclass
    exact Nat.succ_ne_zero _ hclass.symm
  · rw [assembleLength, hclass, hbyte]
    omega

/-! ### The encoder inverted -/

/-- A header byte decodes to the header row of its fields (R92, R97). -/
theorem decodeHeader_eq_frameRow (b : Byte) (t : Nat) :
    decodeHeader b t = frameRow (headerKind b) (headerSeq b) (headerLen b) t := by
  unfold decodeHeader frameRow
  cases headerKind b <;> rfl

theorem decodeHeader_headerByte (kind : Kind) (seq : Seq) (lc : LenClass) (t : Nat) :
    decodeHeader (headerByte kind seq lc) t = frameRow kind seq lc t := by
  rw [decodeHeader_eq_frameRow, headerKind_headerByte, headerSeq_headerByte, headerLen_headerByte]

/-- The catch-all row is for the codes that no other row names (R89, R93). -/
theorem otherNackCode_iff (c : Byte) : otherNackCode c = true ↔
    c ≠ codeNotPreamble ∧ c ≠ codeBadCrc ∧ c ≠ codeRxTimeout ∧ c ≠ codeNotReady := by
  simp [otherNackCode, codeNotPreamble, codeBadCrc, codeRxTimeout, codeNotReady, and_assoc]

theorem decodeNackCode_of_other {c : Byte} (h : otherNackCode c = true) (t : Nat) :
    decodeNackCode c t = .nackOther c t := by
  obtain ⟨h1, h2, h3, h4⟩ := (otherNackCode_iff c).1 h
  rw [decodeNackCode, if_neg h1, if_neg h2, if_neg h3, if_neg h4]

theorem decode_encode {i : Instr} (h : WellFormed i = true) : decode (encode i) = .ok i := by
  cases i with
  | receiveByte | tick | transmit | replyAck | cbReturn | init | reserved110 | reserved111 => rfl
  | preamble => rfl
  | hdrUnsync seq lc => exact congrArg Except.ok (decodeHeader_headerByte .unsync seq lc _)
  | hdrSync seq lc => exact congrArg Except.ok (decodeHeader_headerByte .sync seq lc _)
  | hdrAck seq lc t => exact congrArg Except.ok (decodeHeader_headerByte .ack seq lc t)
  | hdrNack seq lc t => exact congrArg Except.ok (decodeHeader_headerByte .nack seq lc t)
  | nackNotPreamble | nackBadCrc | nackRxTimeout | nackNotReady => rfl
  | nackOther c t => exact congrArg Except.ok (decodeNackCode_of_other h t)

/-- A stimulus that the host issues is the one the engine decodes (R99). -/
theorem decodeStimulus_stimulusOf {i : Instr} (h : formatOf i = .stimulus) : decodeStimulus (stimulusOf i) = i := by
  cases i with
  | receiveByte | tick | transmit | replyAck | cbReturn | init | reserved110 | reserved111 => rfl
  | _ => cases h

/-- Settles O5: by the rows of the table; a header row by its three fields, the catch-all row by its code being none of
the four named ones. -/
theorem decodeOfEncodeIsIdentity : Obligations.DecodeOfEncodeIsIdentity :=
  fun _ h => ⟨decode_encode h, decodeStimulus_stimulusOf⟩

/-! ### What each format decodes -/

/-- `i` is well-formed, and in the format `f` its word is `w`. -/
def HasWord (f : Format) (w : Byte) (i : Instr) : Prop := WellFormed i = true ∧ formatOf i = f ∧ wordOf i = w

theorem commandCode_cases : ∀ c : BitVec 3, c = 0 ∨ c = 1 ∨ c = 2 ∨ c = 3 ∨ c = 4 ∨ c = 5 ∨ c = 6 ∨ c = 7 := by
  decide

theorem decodeStimulus_hasWord (c : Stimulus) : HasWord .stimulus (c.code.setWidth 8) (decodeStimulus c) := by
  obtain ⟨code, ops⟩ := c
  rcases commandCode_cases code with rfl | rfl | rfl | rfl | rfl | rfl | rfl | rfl <;> exact ⟨rfl, rfl, rfl⟩

theorem frameRow_hasWord (kind : Kind) (seq : Seq) (lc : LenClass) (t : Nat) :
    HasWord .header (headerByte kind seq lc) (frameRow kind seq lc t) := by
  cases kind <;> exact ⟨rfl, rfl, rfl⟩

theorem decodeHeader_hasWord (b : Byte) (t : Nat) : HasWord .header b (decodeHeader b t) := by
  have h := frameRow_hasWord (headerKind b) (headerSeq b) (headerLen b) t
  rwa [headerByte_of_fields, ← decodeHeader_eq_frameRow] at h

theorem decodeNackCode_hasWord (b : Byte) (t : Nat) : HasWord .nackCode b (decodeNackCode b t) := by
  unfold decodeNackCode
  split_ifs with h1 h2 h3 h4
  · exact ⟨rfl, rfl, h1.symm⟩
  · exact ⟨rfl, rfl, h2.symm⟩
  · exact ⟨rfl, rfl, h3.symm⟩
  · exact ⟨rfl, rfl, h4.symm⟩
  · exact ⟨(otherNackCode_iff b).2 ⟨h1, h2, h3, h4⟩, rfl, rfl⟩

/-! ### The decoder, by format -/

/-- A command word below 8 is its low three bits (R99). -/
theorem setWidth_commandCode {w : Byte} (h : w < 8) : (w.setWidth 3).setWidth 8 = w := by
  have : w.toNat < 8 := h
  apply BitVec.eq_of_toNat_eq
  rw [BitVec.toNat_setWidth, BitVec.toNat_setWidth]
  omega

theorem decode_stimulus_of_lt {w : Byte} (h : w < 8) (ops : Operands) :
    decode ⟨.stimulus, w, ops⟩ = .ok (decodeStimulus ⟨w.setWidth 3, ops⟩) := if_pos h

theorem decode_stimulus_of_ge {w : Byte} (h : ¬ w < 8) (ops : Operands) :
    decode ⟨.stimulus, w, ops⟩ = .error .notACommandCode := if_neg h

theorem decode_wireByte_of_eq {w : Byte} (h : w = preambleByte) (ops : Operands) :
    decode ⟨.wireByte, w, ops⟩ = .ok (.preamble ops.time) := if_pos h

theorem decode_wireByte_of_ne {w : Byte} (h : w ≠ preambleByte) (ops : Operands) :
    decode ⟨.wireByte, w, ops⟩ = .error .garbageByte := if_neg h

/-- Whatever decodes has the word it was decoded from. -/
theorem hasWord_of_decode {c : Coded} {i : Instr} (h : decode c = .ok i) : HasWord c.format c.word i := by
  obtain ⟨f, w, ops⟩ := c
  cases f with
  | stimulus =>
    by_cases hw : w < 8
    · rw [decode_stimulus_of_lt hw] at h
      obtain rfl := Except.ok.inj h
      have own := decodeStimulus_hasWord ⟨w.setWidth 3, ops⟩
      rwa [setWidth_commandCode hw] at own
    · cases (decode_stimulus_of_ge hw ops).symm.trans h
  | wireByte =>
    by_cases hw : w = preambleByte
    · cases (decode_wireByte_of_eq hw ops).symm.trans h
      exact ⟨rfl, rfl, hw.symm⟩
    · cases (decode_wireByte_of_ne hw ops).symm.trans h
  | header =>
    cases h
    exact decodeHeader_hasWord w ops.time
  | nackCode =>
    cases h
    exact decodeNackCode_hasWord w ops.time

/-- Settles O6: what each format decodes has the word, and the domain of the decoder is read off its equations. -/
theorem decodedWordIsTheInstructionsOwn : Obligations.DecodedWordIsTheInstructionsOwn := by
  refine ⟨fun _ _ h => hasWord_of_decode h, ?_, ?_, ?_⟩
  · rintro ⟨_, w, ops⟩ rfl
    exact ⟨fun h => ⟨_, decode_stimulus_of_lt h ops⟩, fun h => decode_stimulus_of_ge (Nat.not_lt.2 h) ops⟩
  · rintro ⟨_, w, ops⟩ rfl
    exact ⟨fun h => ⟨_, decode_wireByte_of_eq h ops⟩, fun h => decode_wireByte_of_ne h ops⟩
  · rintro ⟨_, w, ops⟩ (rfl | rfl)
    · exact ⟨_, rfl⟩
    · exact ⟨_, rfl⟩

/-- Settles O7: the decoder run on each word. -/
theorem tableWordsDecode : Obligations.TableWordsDecode := by
  unfold Obligations.TableWordsDecode
  decide

/-! ### The PREAMBLE row and the reserved codes -/

/-- Outside a frame the preamble is accepted, after the garbage NACK where one is sent, which leaves the configuration
alone (R122, R124). -/
theorem parseByte_preamble {s : State} (h : s.rxState = .expectPreamble ∨ s.rxState = .notPreamble) (t : Nat) :
    ∃ v, v.cfg = s.cfg ∧ parseByte preambleByte t s = finish none (acceptPreamble t v) := by
  rcases h with hs | hs <;> simp only [parseByte, hs]
  · exact ⟨s, rfl, by rw [inExpectPreamble, if_pos rfl]⟩
  · rw [inNotPreamble, if_pos rfl, preambleAfterGarbage]
    refine ⟨_, ?_, rfl⟩
    split
    · exact sendNack_cfg s codeNotPreamble 0
    · rfl

/-- Settles O22: the row is the byte by `execPreamble_eq`, and at a frame boundary the byte accepts the preamble. -/
theorem preambleRowIsTheByteReceived : Obligations.PreambleRowIsTheByteReceived := by
  refine ⟨fun s t => execPreamble_eq t s, fun s t hr hs => ?_⟩
  obtain ⟨v, hcfg, hv⟩ := parseByte_preamble hs t
  have row : exec (.preamble t) s = finish none (acceptPreamble t v) := by
    rw [exec, execPreamble_eq, execReceiveByte, whenIdle_pass hr, hv]
  exact ⟨_, row, acceptPreamble_rxState v t, acceptPreamble_rxSeq v t, acceptPreamble_rxCrc v t,
    hcfg ▸ acceptPreamble_tmrRx t v⟩

/-- Settles O14: neither arm reads the state. -/
theorem reservedCodesAreRefused : Obligations.ReservedCodesAreRefused := fun _ => ⟨rfl, rfl⟩

end Sys2Proof.Machine

/-! ## The CRC engine

The bit-serial round is additive, so the eight rounds act on the low byte of the CRC and on the xor of its high byte with
the data byte separately, which is the form `crc16Update_eq` gives the default update. The same form shows that the update
is injective in each argument, because the low byte of its result determines the byte that was folded. -/

namespace Sys2Proof.Machine

/-! ### The two bytes of a CRC -/

@[simp] theorem receivedCrc_high (hi lo : Byte) : (receivedCrc hi lo).extractLsb' 8 8 = hi :=
  BitVec.extractLsb'_append_eq_left

@[simp] theorem receivedCrc_low (hi lo : Byte) : (receivedCrc hi lo).extractLsb' 0 8 = lo :=
  BitVec.extractLsb'_append_eq_right

theorem receivedCrc_inj {hi lo hi' lo' : Byte} (h : receivedCrc hi lo = receivedCrc hi' lo') :
    hi = hi' ∧ lo = lo' := by
  constructor
  · simpa using congrArg (BitVec.extractLsb' 8 8) h
  · simpa using congrArg (BitVec.extractLsb' 0 8) h

/-- A byte in the high half, and zero in the low one. -/
theorem byte_shiftLeft_eq_receivedCrc (x : Byte) : x.setWidth 16 <<< 8 = receivedCrc x 0 := by
  apply BitVec.eq_of_getLsbD_eq
  intro i hi
  rw [receivedCrc, getLsbD_join]
  interval_cases i <;> simp

/-- The two halves of a CRC as the terms of a xor. -/
theorem low_xor_high (c : Crc) :
    (c.extractLsb' 0 8).setWidth 16 ^^^ ((c.extractLsb' 8 8).setWidth 16 <<< 8) = c := by
  apply BitVec.eq_of_getLsbD_eq
  intro i hi
  interval_cases i <;> simp

/-! ### The default update is the bit-serial one -/

/-- The round shifts, and xors the polynomial in where the bit shifted out is set (R113). -/
theorem crcBitRound_eq (c : Crc) : crcBitRound c = (c <<< 1) ^^^ bif c.getLsbD 15 then 0x1021 else 0 := by
  rw [crcBitRound]
  cases c.getLsbD 15 <;> simp

theorem crcBitRound_xor (c d : Crc) : crcBitRound (c ^^^ d) = crcBitRound c ^^^ crcBitRound d := by
  have polynomial (a b : Bool) : (bif a ^^ b then (0x1021 : Crc) else 0) =
      (bif a then 0x1021 else 0) ^^^ bif b then 0x1021 else 0 := by
    cases a <;> cases b <;> rfl
  rw [crcBitRound_eq, crcBitRound_eq c, crcBitRound_eq d, BitVec.getLsbD_xor, BitVec.shiftLeft_xor_distrib, polynomial]
  ac_rfl

theorem iterate_crcBitRound_xor (n : Nat) (c d : Crc) :
    crcBitRound^[n] (c ^^^ d) = crcBitRound^[n] c ^^^ crcBitRound^[n] d := by
  induction n generalizing c d with
  | zero => rfl
  | succ n ih => simp only [Function.iterate_succ_apply, crcBitRound_xor, ih]

/-- A byte in the low half brings no set bit to the top in eight rounds, so each of them only shifts. -/
theorem iterate_crcBitRound_low (b : Byte) {n : Nat} (hn : n ≤ 8) :
    crcBitRound^[n] (b.setWidth 16) = b.setWidth 16 <<< n := by
  induction n with
  | zero => simp
  | succ n ih =>
    have clear : (b.setWidth 16 <<< n).getLsbD 15 = false := by
      rw [BitVec.getLsbD_shiftLeft, BitVec.getLsbD_setWidth, BitVec.getLsbD_of_ge b _ (by omega)]
      simp
    rw [Function.iterate_succ_apply', ih (by omega), crcBitRound_eq, clear, BitVec.shiftLeft_add]
    exact BitVec.xor_zero

/-- Eight rounds on a byte in the high half, checked on each of its 256 values. -/
theorem iterate_crcBitRound_high : ∀ x : Byte, crcBitRound^[8] (x.setWidth 16 <<< 8) = crcFold x := by
  decide

theorem crc16Update_eq_crcBitSerial (c : Crc) (b : Byte) : crc16Update c b = crcBitSerial c b := by
  have halves : c ^^^ (b.setWidth 16 <<< 8) =
      (c.extractLsb' 0 8).setWidth 16 ^^^ ((c.extractLsb' 8 8 ^^^ b).setWidth 16 <<< 8) := by
    rw [BitVec.setWidth_xor, BitVec.shiftLeft_xor_distrib, ← BitVec.xor_assoc, low_xor_high]
  rw [crcBitSerial, halves, iterate_crcBitRound_xor, iterate_crcBitRound_low _ le_rfl, iterate_crcBitRound_high,
    crc16Update_eq]

/-- Settles O8: eight additive rounds, half by half, and the check value run. -/
theorem crcUpdateIsBitSerialUpdate : Obligations.CrcUpdateIsBitSerialUpdate :=
  ⟨crc16Update_eq_crcBitSerial, by decide⟩

/-! ### Folding over a byte run -/

theorem crcOver_cons (update : CrcUpdate) (c : Crc) (b : Byte) (bs : List Byte) :
    crcOver update c (b :: bs) = crcOver update (crcUpdate update c b) bs := rfl

theorem crcOver_append (update : CrcUpdate) (c : Crc) (as bs : List Byte) :
    crcOver update c (as ++ bs) = crcOver update (crcOver update c as) bs := List.foldl_append

/-- Settles O9: `crcOver` is the library's left fold. -/
theorem crcOverFoldsTheUpdate : Obligations.CrcOverFoldsTheUpdate :=
  ⟨fun _ _ => rfl, crcOver_cons, crcOver_append, rfl, by decide⟩

/-! ### The residue of a frame -/

/-- The high byte of the CRC cancels itself in the fold, which leaves the low byte, moved up. -/
theorem crc16Update_high (c : Crc) : crc16Update c (c.extractLsb' 8 8) = receivedCrc (c.extractLsb' 0 8) 0 := by
  rw [crc16Update_eq, BitVec.xor_self, byte_shiftLeft_eq_receivedCrc]
  exact BitVec.xor_zero

theorem crcOver_trailer (c : Crc) : crcOver .reconstructed c (trailer c) = 0 := by
  calc crc16Update (crc16Update c (c.extractLsb' 8 8)) (c.extractLsb' 0 8)
      = crc16Update (receivedCrc (c.extractLsb' 0 8) 0) (c.extractLsb' 0 8) := by rw [crc16Update_high]
    _ = receivedCrc 0 0 := by simpa using crc16Update_high (receivedCrc (c.extractLsb' 0 8) 0)

/-- Settles O10: the trailer holds the bytes of the CRC it is folded into. -/
theorem frameResidueIsZero : Obligations.FrameResidueIsZero := by
  intro kind seq payload
  rw [encodeFrame, List.tail_cons, crcOver_append]
  exact crcOver_trailer _

/-! ### A changed byte changes the CRC -/

/-- The byte that was folded, from the low byte of its fold: each of the two shift-xor lines undoes itself on a byte. -/
def crcUnfold (z : Byte) : Byte :=
  let y := z ^^^ (z <<< 5)
  y ^^^ (y >>> 4)

theorem crcUnfold_crcFold_low (x : Byte) : crcUnfold ((crcFold x).extractLsb' 0 8) = x := by
  apply BitVec.eq_of_getLsbD_eq
  intro i hi
  interval_cases i <;> simp [crcFold, crcUnfold]

theorem crcUnfold_crc16Update_low (c : Crc) (b : Byte) :
    crcUnfold ((crc16Update c b).extractLsb' 0 8) = c.extractLsb' 8 8 ^^^ b := by
  rw [crc16Update_eq, byte_shiftLeft_eq_receivedCrc, BitVec.extractLsb'_xor, receivedCrc_low]
  exact (congrArg crcUnfold BitVec.zero_xor).trans (crcUnfold_crcFold_low _)

theorem crc16Update_byte_inj {c : Crc} {b b' : Byte} (h : crc16Update c b = crc16Update c b') : b = b' := by
  have folded := crcUnfold_crc16Update_low c b
  rwa [h, crcUnfold_crc16Update_low, BitVec.xor_right_inj, eq_comm] at folded

theorem crc16Update_crc_inj {c c' : Crc} {b : Byte} (h : crc16Update c b = crc16Update c' b) : c = c' := by
  have high := crcUnfold_crc16Update_low c b
  rw [h, crcUnfold_crc16Update_low, BitVec.xor_left_inj] at high
  rw [crc16Update_eq, crc16Update_eq, high, BitVec.xor_left_inj, byte_shiftLeft_eq_receivedCrc,
    byte_shiftLeft_eq_receivedCrc] at h
  rw [← receivedCrc_bytes c, ← receivedCrc_bytes c', high, (receivedCrc_inj h).1]

theorem crcOver_inj {c c' : Crc} (bs : List Byte)
    (h : crcOver .reconstructed c bs = crcOver .reconstructed c' bs) : c = c' := by
  induction bs generalizing c c' with
  | nil => exact h
  | cons b bs ih => exact crc16Update_crc_inj (ih h)

/-- Settles O11: the bytes before lead to one CRC, the changed byte to two, and the bytes after keep them apart. -/
theorem crcDetectsAChangedByte : Obligations.CrcDetectsAChangedByte := by
  refine ⟨fun v pre post b b' hb h => ?_, fun hi lo hi' lo' hne h => ?_, receivedCrc_bytes⟩
  · rw [crcOver_append, crcOver_append] at h
    exact hb (crc16Update_byte_inj (crcOver_inj post h))
  · obtain ⟨high, low⟩ := receivedCrc_inj h
    exact hne (by rw [high, low])

end Sys2Proof.Machine

/-! ## The frame parser

What each state of the parser does with a byte comes first, as an equation or as the whole next state. A run of received
bytes is then followed with `AfterBytes`, whatever the sample each byte comes at: the header and length bytes and every
payload byte keep `InPayload`, and the CRC at the end of a frame is the one `CrcInv` gives. -/

namespace Sys2Proof.Machine

/-! ### The whole next state of the parser's operations -/

theorem deadlineEvent_soonest (t : Nat) (s : State) :
    deadlineEvent (soonest s) = (commanded t s.tmrRx s.tmrAck).1 := by
  unfold soonest commanded
  cases s.tmrRx.en <;> cases s.tmrAck.en <;> rfl

theorem deadlinePrim_soonest (t : Nat) (s : State) :
    deadlinePrim t (soonest s) = (commanded t s.tmrRx s.tmrAck).2 := by
  unfold soonest commanded
  cases s.tmrRx.en <;> cases s.tmrAck.en <;> rfl

/-- A reschedule gives the command that the four cases of the enables ask for (R151). -/
theorem reschedule_eq_commanded (t : Nat) (s : State) : reschedule t s = { s with
    trace := s.trace ++ [(commanded t s.tmrRx s.tmrAck).1]
    prim := (commanded t s.tmrRx s.tmrAck).2 } := by
  rw [reschedule, deadlineEvent_soonest t, deadlinePrim_soonest]

/-- The receive timer is armed, and the sequence and the CRC begin anew (R122). -/
theorem acceptPreamble_eq (t : Nat) (s : State) : acceptPreamble t s = { s with
    tmrRx := { en := true, rem := s.cfg.rxTimeout, last := t }
    tmrAck := s.tmrAck.accrue t
    rxSeq := 0, rxCrc := crcInit, rxState := .expectHeaderHigh
    trace := s.trace ++ [(commanded t { en := true, rem := s.cfg.rxTimeout, last := t } (s.tmrAck.accrue t)).1]
    prim := (commanded t { en := true, rem := s.cfg.rxTimeout, last := t } (s.tmrAck.accrue t)).2 } := by
  rw [acceptPreamble, muxSet, reschedule_eq_commanded]
  rfl

/-- The receive timer is cancelled, and the parser is at a frame boundary (R129). -/
theorem endFrame_eq (t : Nat) (s : State) : endFrame t s = { s with
    tmrRx := { s.tmrRx.accrue t with en := false }
    tmrAck := s.tmrAck.accrue t
    rxState := .expectPreamble
    trace := s.trace ++ [(commanded t { s.tmrRx.accrue t with en := false } (s.tmrAck.accrue t)).1]
    prim := (commanded t { s.tmrRx.accrue t with en := false } (s.tmrAck.accrue t)).2 } := by
  rw [endFrame, muxCancel, reschedule_eq_commanded]
  rfl

theorem forwardNonprotocol_eq (b : Byte) (s : State) : forwardNonprotocol b s =
    { s with trace := s.trace ++ if s.cfg.hasNonprotocolCb then [.nonProto b] else [] } := by
  unfold forwardNonprotocol
  split
  · rfl
  · rw [List.append_nil]

/-- `s` after garbage bytes: they are forwarded in order, and a preamble is awaited (R121, R123, R135). -/
def afterGarbage (bytes : List Byte) (s : State) : State := { s with
  rxState := .notPreamble
  trace := s.trace ++ if s.cfg.hasNonprotocolCb then bytes.map Event.nonProto else []
  result := none }

theorem afterGarbage_afterGarbage (as bs : List Byte) (s : State) :
    afterGarbage bs (afterGarbage as s) = afterGarbage (as ++ bs) s := by
  unfold afterGarbage
  cases s.cfg.hasNonprotocolCb <;> simp

/-- `s` after the garbage NACK that a preamble may owe: garbage came before it, and the policy asks for one (R124). -/
def garbageNacked (s : State) : State := { s with
  trace := s.trace ++ if s.rxState = .notPreamble ∧ s.cfg.nackGarbage = true
    then wires (encodeFrame s.crcUpdate .nack 0 [1]) else [] }

theorem preambleAfterGarbage_eq {s : State} (hs : s.rxState = .notPreamble) (t : Nat) :
    preambleAfterGarbage t s = acceptPreamble t (garbageNacked s) := by
  unfold preambleAfterGarbage garbageNacked
  by_cases hg : s.cfg.nackGarbage = true
  · rw [if_pos hg, if_pos ⟨hs, hg⟩]
    rfl
  · rw [if_neg hg, if_neg fun both => hg both.2, List.append_nil]

/-! ### A received byte, by the parser's state -/

section
variable {s : State} (h : Ready s) (b : Byte) (t : Nat)
include h

theorem receiveByte_eq_parseByte : exec (.receiveByte b t) s = parseByte b t s := whenIdle_pass h _

/-- Outside a frame, a byte that is not the preamble is garbage in either state (R121, R124). -/
theorem receiveByte_garbage (hs : s.rxState = .expectPreamble ∨ s.rxState = .notPreamble) (hb : b ≠ preambleByte) :
    exec (.receiveByte b t) s = .next (afterGarbage [b] s) := by
  rw [receiveByte_eq_parseByte h]
  rcases hs with hs | hs <;> simp only [parseByte, hs]
  · rw [inExpectPreamble, if_neg hb, forwardNonprotocol_eq]
    rfl
  · rw [inNotPreamble, if_neg hb, forwardNonprotocol_eq, afterGarbage, ← hs]
    rfl

/-- Outside a frame, the preamble starts one (R121, R124). -/
theorem receiveByte_preamble (hs : s.rxState = .expectPreamble ∨ s.rxState = .notPreamble) :
    exec (.receiveByte preambleByte t) s = finish none (acceptPreamble t (garbageNacked s)) := by
  rw [receiveByte_eq_parseByte h]
  rcases hs with hs | hs <;> simp only [parseByte, hs]
  · have owed : garbageNacked s = s := by
      rw [garbageNacked, if_neg (by simp [hs]), List.append_nil]
    rw [inExpectPreamble, if_pos rfl, owed]
  · rw [inNotPreamble, if_pos rfl, preambleAfterGarbage_eq hs]

theorem receiveByte_header (hs : s.rxState = .expectHeaderHigh) :
    exec (.receiveByte b t) s = finish none (inExpectHeaderHigh b s) := by
  rw [receiveByte_eq_parseByte h]
  simp only [parseByte, hs]

theorem receiveByte_length (hs : s.rxState = .expectHeaderLow) :
    exec (.receiveByte b t) s = finish none (inExpectHeaderLow b s) := by
  rw [receiveByte_eq_parseByte h]
  simp only [parseByte, hs]

theorem receiveByte_payload (hs : s.rxState = .receivingData) (hroom : s.rxCount < s.cfg.rxBufSize) :
    exec (.receiveByte b t) s = finish none (storePayloadByte b s) := by
  rw [receiveByte_eq_parseByte h]
  simp only [parseByte, hs]
  rw [inReceivingData, if_pos hroom]

theorem receiveByte_crcHigh (hs : s.rxState = .expectCrcHigh) :
    exec (.receiveByte b t) s = finish none (inExpectCrcHigh b s) := by
  rw [receiveByte_eq_parseByte h]
  simp only [parseByte, hs]

theorem receiveByte_crcLow_match (hs : s.rxState = .expectCrcLow) (hcrc : receivedCrc s.rxCrcHi b = s.rxCrc) :
    exec (.receiveByte b t) s = dispatch t (endFrame t s) := by
  rw [receiveByte_eq_parseByte h]
  simp only [parseByte, hs]
  rw [inExpectCrcLow, if_pos hcrc]

theorem receiveByte_crcLow_mismatch (hs : s.rxState = .expectCrcLow) (hcrc : receivedCrc s.rxCrcHi b ≠ s.rxCrc) :
    exec (.receiveByte b t) s = finish none (sendNack codeBadCrc s.rxSeq (endFrame t s)) := by
  rw [receiveByte_eq_parseByte h]
  simp only [parseByte, hs]
  rw [inExpectCrcLow, if_neg hcrc]

/-- The header row of the frame whose header stands in the parser's registers is its dispatch (R200). -/
theorem frameRow_eq_dispatch (hlen : s.rxLc = 0 → s.rxLen = 0 ∧ s.rxCount = 0) :
    exec (frameRow s.rxKind s.rxSeq s.rxLc t) s = dispatch t s := by
  have row (kind : Kind) (seq : Seq) (lc : LenClass) :
      exec (frameRow kind seq lc t) s = dispatch t (latchHeader kind seq lc s) := by
    cases kind <;> exact whenIdle_pass h _
  rw [row, latchHeader_self s hlen]

end

/-! ### The statements on one byte -/

/-- Settles O23: the byte is `inExpectHeaderHigh`, field by field. -/
theorem headerByteIsParsed : Obligations.HeaderByteIsParsed :=
  fun _ b t hr hs => receiveByte_header hr b t hs

/-- Settles O24: the byte is `inExpectHeaderLow`; the length is at most 768 by `assembleLength_le`. -/
theorem lengthByteIsParsed : Obligations.LengthByteIsParsed :=
  fun s b t hr hs _ => ⟨receiveByte_length hr b t hs, assembleLength_pos s.rxLc b, assembleLength_le s.rxLc b⟩

/-- Settles O25: the memory after `storePayloadByte`, by the laws of a read after a write. -/
theorem payloadByteIsStored : Obligations.PayloadByteIsStored :=
  fun s b t hr hs hroom => ⟨Memory.write s.rxBufFill s.rxBuf s.rxCount b, receiveByte_payload hr b t hs hroom,
    Memory.read_write_same .., fun _ ha => Memory.read_write_other _ _ _ ha⟩

/-- Settles O26: the byte is `inExpectCrcHigh`. -/
theorem crcHighByteIsKept : Obligations.CrcHighByteIsKept :=
  fun _ b t hr hs => receiveByte_crcHigh hr b t hs

/-- Settles O21: a garbage byte and a preamble, each with the whole state it leaves. -/
theorem parserOutsideAFrame : Obligations.ParserOutsideAFrame :=
  fun s t hr hs => ⟨fun b hb => receiveByte_garbage hr b t hs hb,
    (receiveByte_preamble hr t hs).trans (congrArg (finish none) (acceptPreamble_eq t (garbageNacked s)))⟩

/-- Settles O27: both outcomes start from `endFrame`; a dispatch is the header row of the registers. -/
theorem crcLowByteEndsTheFrame : Obligations.CrcLowByteEndsTheFrame := by
  intro s b t hr hs rx ack ended
  have hended : endFrame t s = ended := endFrame_eq t s
  refine ⟨fun hcrc hlen => ?_, fun hcrc => ?_⟩
  · rw [receiveByte_crcLow_match hr b t hs hcrc, hended]
    exact (frameRow_eq_dispatch (s := ended) hr t hlen).symm
  · rw [receiveByte_crcLow_mismatch hr b t hs hcrc, hended]
    rfl

/-- Settles O28: each state of the parser has a next state; the payload's place in the buffer is in bounds by the
invariant, and so is the read of the payload at a dispatch. -/
theorem everyByteIsAccepted : Obligations.EveryByteIsAccepted := by
  rintro s b t ⟨hp, -⟩ hr
  rw [receiveByte_eq_parseByte hr]
  cases hs : s.rxState <;> simp only [parseByte, hs]
  case receivingData => exact ⟨_, if_pos (rxCount_lt_rxBufSize hp hs)⟩
  case expectCrcLow =>
    rw [inExpectCrcLow]
    split
    · have hlen : (endFrame t s).rxLen ≤ (endFrame t s).cfg.rxBufSize := by simpa using rxLen_le_rxBufSize hp
      exact ⟨_, withPayload_ok (rxPayload_eq _ hlen) _⟩
    · exact ⟨_, rfl⟩
  case expectPreamble | notPreamble | expectHeaderHigh | expectHeaderLow | expectCrcHigh => exact ⟨_, rfl⟩

/-! ### The receive timeout -/

theorem Timer.fires_iff (tm : Timer) : tm.fires = true ↔ tm.en = true ∧ tm.rem = 0 := by
  simp [Timer.fires]

/-- A tick in which the receive timer fires alone runs its handler alone (R155, R156). -/
theorem runTick_rx_fires {t : Nat} {s : State} (hrx : (s.tmrRx.accrue t).fires = true)
    (hack : (s.tmrAck.accrue t).fires = false) :
    runTick t s = reschedule t (rxTimeoutHandler { s with
      tmrRx := { s.tmrRx.accrue t with en := false }, tmrAck := s.tmrAck.accrue t }) := by
  have disarmed : disarmFired (accrue t s) =
      { s with tmrRx := { s.tmrRx.accrue t with en := false }, tmrAck := s.tmrAck.accrue t } := by
    simp only [disarmFired, accrue, hrx, hack, Bool.not_true, Bool.and_false, Bool.not_false, Bool.and_true]
  rw [runTick_eq_afterRxHandler, afterRxHandler, if_pos hrx, hack, if_neg Bool.false_ne_true, disarmed]

/-- Settles O37: the tick runs the receive timer's handler and reschedules. -/
theorem receiveTimeoutSendsNack : Obligations.ReceiveTimeoutSendsNack := by
  intro s t hr rx ack hen hrem hack
  have hfires : (s.tmrRx.accrue t).fires = true := (Timer.fires_iff _).2 ⟨hen, hrem⟩
  have hrests : (s.tmrAck.accrue t).fires = false :=
    Bool.eq_false_iff.2 fun hf => hack ((Timer.fires_iff _).1 hf)
  have run : exec (.tick t) s = finish none (runTick t s) := whenIdle_pass hr _
  rw [run, runTick_rx_fires hfires hrests, reschedule_eq_commanded]
  rfl

/-! ### Runs of received bytes -/

theorem receiveAt_cons (b : Byte) (bs : List Byte) (t : Nat) (times : List Nat) :
    receiveAt (b :: bs) (t :: times) = .receiveByte b t :: receiveAt bs times := rfl

theorem receiveAt_concat {bytes : List Byte} {times : List Nat} (h : times.length = bytes.length) (b : Byte) (t : Nat) :
    receiveAt (bytes ++ [b]) (times ++ [t]) = receiveAt bytes times ++ [.receiveByte b t] :=
  List.zipWith_append h.symm

theorem execAll_cons_of_next {i : Instr} {s u : State} (h : exec i s = .next u) (is : List Instr) :
    execAll (i :: is) s = execAll is u := by
  rw [execAll, h]

theorem execAll_singleton (i : Instr) (s : State) : execAll [i] s = exec i s := by
  rw [execAll]
  cases exec i s <;> rfl

theorem execAll_append_of_next {is js : List Instr} {s u : State} (h : execAll is s = .next u) :
    execAll (is ++ js) s = execAll js u := by
  induction is generalizing s with
  | nil => cases h; rfl
  | cons i is ih =>
    cases hi : exec i s with
    | next v =>
      rw [execAll_cons_of_next hi] at h
      rw [List.cons_append, execAll_cons_of_next hi, ih h]
    | fault f => simp [execAll, hi] at h
    | refused r => simp [execAll, hi] at h

/-- Settles O30: by induction on the run, each byte forwarded and the rest received after it. -/
theorem garbageIsForwardedInOrder : Obligations.GarbageIsForwardedInOrder := by
  intro s bytes times hr hs hne hgarbage hlen
  change execAll (receiveAt bytes times) s = .next (afterGarbage bytes s)
  induction bytes generalizing s times with
  | nil => exact absurd rfl hne
  | cons b bs ih =>
    cases times with
    | nil => cases hlen
    | cons t times =>
      obtain ⟨hb, hbs⟩ := List.forall_mem_cons.1 hgarbage
      rw [receiveAt_cons, execAll_cons_of_next (receiveByte_garbage hr b t hs hb)]
      by_cases hrest : bs = []
      · rw [hrest]
        rfl
      · rw [ih (afterGarbage [b] s) times hr (.inr rfl) hrest hbs (Nat.succ.inj hlen), afterGarbage_afterGarbage,
          List.singleton_append]

/-- Receiving the bytes in order from `s`, each at whatever sample, leads to a state with `P`. -/
def AfterBytes (P : State → Prop) : List Byte → State → Prop
  | [], s => P s
  | b :: bs, s => ∀ t, ∃ u, exec (.receiveByte b t) s = .next u ∧ AfterBytes P bs u

theorem AfterBytes.execAll {P : State → Prop} {bytes : List Byte} {s : State} (h : AfterBytes P bytes s)
    {times : List Nat} (hlen : times.length = bytes.length) :
    ∃ u, execAll (receiveAt bytes times) s = .next u ∧ P u := by
  induction bytes generalizing s times with
  | nil => exact ⟨s, rfl, h⟩
  | cons b bs ih =>
    cases times with
    | nil => cases hlen
    | cons t times =>
      obtain ⟨v, first, rest⟩ := h t
      rw [receiveAt_cons, execAll_cons_of_next first]
      exact ih rest (Nat.succ.inj hlen)

/-- The bytes of one run, then those of another. -/
theorem AfterBytes.append {P Q : State → Prop} {as bs : List Byte} {s : State} (h : AfterBytes P as s)
    (hPQ : ∀ u, P u → AfterBytes Q bs u) : AfterBytes Q (as ++ bs) s := by
  induction as generalizing s with
  | nil => exact hPQ s h
  | cons a as ih =>
    intro t
    obtain ⟨u, first, rest⟩ := h t
    exact ⟨u, first, ih rest⟩

/-- One byte whose effect does not depend on its sample. -/
theorem AfterBytes.single {P : State → Prop} {b : Byte} {s u : State}
    (h : ∀ t, exec (.receiveByte b t) s = finish none u) (hu : P { u with result := none }) : AfterBytes P [b] s :=
  fun t => ⟨_, h t, hu⟩

/-! ### What a frame leaves alone before its dispatch -/

/-- `u` continues `s` with no callback: it is as ready, with the same parameters. -/
structure Continues (s u : State) : Prop where
  fault : u.fault = s.fault
  inited : u.inited = s.inited
  ctx : u.ctx = s.ctx
  cfg : u.cfg = s.cfg
  crcUpdate : u.crcUpdate = s.crcUpdate
  trace : ∃ l, u.trace = s.trace ++ l ∧ ∀ e ∈ l, isCallback e = false

theorem Continues.ready {s u : State} (h : Continues s u) (hs : Ready s) : Ready u := by
  simpa only [Ready, Accepting, h.fault, h.inited, h.ctx] using hs

theorem Continues.trans {s u v : State} (h : Continues s u) (k : Continues u v) : Continues s v := by
  obtain ⟨l, hl, hquiet⟩ := h.trace
  obtain ⟨m, hm, kquiet⟩ := k.trace
  refine ⟨k.fault.trans h.fault, k.inited.trans h.inited, k.ctx.trans h.ctx, k.cfg.trans h.cfg,
    k.crcUpdate.trans h.crcUpdate, l ++ m, ?_, List.forall_mem_append.2 ⟨hquiet, kquiet⟩⟩
  rw [hm, hl, List.append_assoc]

/-- Inside a frame a byte changes only the parser's registers, and emits nothing. -/
theorem Continues.of_sameTrace {s u : State} (fault : u.fault = s.fault) (inited : u.inited = s.inited)
    (ctx : u.ctx = s.ctx) (cfg : u.cfg = s.cfg) (crcUpdate : u.crcUpdate = s.crcUpdate) (trace : u.trace = s.trace) :
    Continues s u :=
  ⟨fault, inited, ctx, cfg, crcUpdate, [], trace.trans (List.append_nil _).symm, List.forall_mem_nil _⟩

theorem isCallback_commanded (t : Nat) (rx ack : Timer) : isCallback (commanded t rx ack).1 = false := by
  unfold commanded
  split <;> rfl

theorem isCallback_of_mem_wires {bytes : List Byte} {e : Event} (h : e ∈ wires bytes) : isCallback e = false := by
  obtain ⟨b, -, rfl⟩ := List.mem_map.1 h
  rfl

theorem garbageNacked_continues (s : State) : Continues s (garbageNacked s) := by
  refine ⟨rfl, rfl, rfl, rfl, rfl, _, rfl, fun e he => ?_⟩
  split at he
  · exact isCallback_of_mem_wires he
  · cases he

theorem acceptPreamble_continues (t : Nat) (s : State) : Continues s (acceptPreamble t s) := by
  rw [acceptPreamble_eq]
  exact ⟨rfl, rfl, rfl, rfl, rfl, _, rfl, List.forall_mem_singleton.2 (isCallback_commanded ..)⟩

theorem endFrame_continues (t : Nat) (s : State) : Continues s (endFrame t s) := by
  rw [endFrame_eq]
  exact ⟨rfl, rfl, rfl, rfl, rfl, _, rfl, List.forall_mem_singleton.2 (isCallback_commanded ..)⟩

/-! ### The bytes of an encoded frame -/

theorem storedBytes_length (s : State) : (storedBytes s).length = s.rxCount := by
  simp [storedBytes]

/-- The length-class says whether there is a payload (R85). -/
theorem eq_zero_of_lengthFields_class {n : Nat} (hn : n ≤ 768) (h : (lengthFields n).1 = 0) : n = 0 := by
  obtain ⟨-, positive, -⟩ := lengthFieldsInvertAssembly
  by_contra hpos
  obtain ⟨lc, lb, hfields, hne, -⟩ := positive n (Nat.pos_of_ne_zero hpos) hn
  exact hne (by rw [← h, hfields])

/-- The parser of an engine that began in `s` holds the first bytes of a payload of `n` bytes, after the header of that
kind and sequence, and awaits the next one or the trailer. -/
structure InPayload (s : State) (kind : Kind) (seq : Seq) (n : Nat) (got : List Byte) (u : State) : Prop where
  continues : Continues s u
  crcInv : CrcInv u
  rxState : u.rxState = if got.length = n then .expectCrcHigh else .receivingData
  rxKind : u.rxKind = kind
  rxSeq : u.rxSeq = seq
  rxLen : u.rxLen = n
  stored : storedBytes u = got

section
variable {s : State} (hr : Ready s)
include hr

/-- The preamble starts the frame (R122). -/
theorem afterBytes_preamble (hs : s.rxState = .expectPreamble ∨ s.rxState = .notPreamble) :
    AfterBytes (fun u => Continues s u ∧ CrcInv u ∧ u.rxState = .expectHeaderHigh) [preambleByte] s := by
  intro t
  have started := (garbageNacked_continues s).trans (acceptPreamble_continues t _)
  exact ⟨_, receiveByte_preamble hr t hs, started.trans (.of_sameTrace rfl rfl rfl rfl rfl rfl),
    acceptPreamble_crcInv t (garbageNacked s), acceptPreamble_rxState (garbageNacked s) t⟩

section
variable {u : State} (hu : Continues s u) (hcrc : CrcInv u) (hs : u.rxState = .expectHeaderHigh)
  (kind : Kind) (seq : Seq)
include hu hcrc hs

/-- A header without a length byte is followed by the trailer (R125). -/
theorem afterBytes_header_empty : AfterBytes (InPayload s kind seq 0 []) [headerByte kind seq 0] u :=
  AfterBytes.single (fun t => receiveByte_header (hu.ready hr) _ t hs) {
    continues := hu.trans (.of_sameTrace rfl rfl rfl rfl rfl rfl)
    crcInv := inExpectHeaderHigh_crcInv (headerByte kind seq 0) hs hcrc
    rxState := by simp
    rxKind := by simp
    rxSeq := by simp
    rxLen := by simp
    stored := by simp [storedBytes] }

/-- A header and its length byte are followed by a payload of the length they give (R125, R126). -/
theorem afterBytes_header_length {lc : LenClass} (hlc : lc ≠ 0#2) (lb : Byte) :
    AfterBytes (InPayload s kind seq (assembleLength lc lb) []) [headerByte kind seq lc, lb] u := by
  intro t
  let v : State := { inExpectHeaderHigh (headerByte kind seq lc) u with result := none }
  have hv : Continues s v := hu.trans (.of_sameTrace rfl rfl rfl rfl rfl rfl)
  have hcrcv : CrcInv v := inExpectHeaderHigh_crcInv (headerByte kind seq lc) hs hcrc
  have hstate : v.rxState = .expectHeaderLow := by simp [v, hlc]
  have hlcv : v.rxLc = lc := by simp [v]
  refine ⟨v, receiveByte_header (hu.ready hr) _ t hs,
    AfterBytes.single (fun t => receiveByte_length (hv.ready hr) lb t hstate) {
      continues := hv.trans (.of_sameTrace rfl rfl rfl rfl rfl rfl)
      crcInv := inExpectHeaderLow_crcInv lb hstate (by rwa [hlcv]) hcrcv
      rxState := by simp [(assembleLength_pos lc lb).ne]
      rxKind := by simp [v]
      rxSeq := by simp [v]
      rxLen := by simp [hlcv]
      stored := by simp [storedBytes] }⟩

/-- The header and the length byte, if there is one, announce the payload (R85). -/
theorem afterBytes_header {n : Nat} (hn : n ≤ 768) :
    AfterBytes (InPayload s kind seq n []) (headerByte kind seq (lengthFields n).1 :: (lengthFields n).2) u := by
  rcases Nat.eq_zero_or_pos n with rfl | hpos
  · exact afterBytes_header_empty hr hu hcrc hs kind seq
  · obtain ⟨-, positive, -⟩ := lengthFieldsInvertAssembly
    obtain ⟨lc, lb, hfields, hlc, -, -, rfl⟩ := positive n hpos hn
    rw [hfields]
    exact afterBytes_header_length hr hu hcrc hs kind seq hlc lb

end

end

section
variable {s u : State} {kind : Kind} {seq : Seq} {n : Nat} {got : List Byte} (h : InPayload s kind seq n got u)
include h

theorem InPayload.rxCount_eq : u.rxCount = got.length := by
  rw [← storedBytes_length, h.stored]

theorem InPayload.receivingData (hroom : got.length < n) : u.rxState = .receivingData := by
  rw [h.rxState, if_neg hroom.ne]

/-- A payload byte received (R127). -/
theorem InPayload.store (hroom : got.length < n) (b : Byte) :
    InPayload s kind seq n (got ++ [b]) { storePayloadByte b u with result := none } where
  continues := h.continues.trans (.of_sameTrace rfl rfl rfl rfl rfl rfl)
  crcInv := storePayloadByte_crcInv b (h.receivingData hroom) h.crcInv
  rxState := by simp [h.rxCount_eq, h.rxLen]
  rxKind := h.rxKind
  rxSeq := h.rxSeq
  rxLen := h.rxLen
  stored := (storedBytes_storePayloadByte b u).trans (by rw [h.stored])

end

theorem afterBytes_payload {s : State} (hr : Ready s) (hsize : 768 ≤ s.cfg.rxBufSize) {kind : Kind} {seq : Seq}
    {n : Nat} (hn : n ≤ 768) {got bytes : List Byte} (hlen : got.length + bytes.length = n) {u : State}
    (h : InPayload s kind seq n got u) : AfterBytes (InPayload s kind seq n (got ++ bytes)) bytes u := by
  induction bytes generalizing got u with
  | nil => rwa [List.append_nil]
  | cons b bs ih =>
    intro t
    rw [List.length_cons] at hlen
    have hroom : got.length < n := by omega
    have hfits : u.rxCount < u.cfg.rxBufSize := by
      rw [h.rxCount_eq, h.continues.cfg]
      omega
    have hlen' : (got ++ [b]).length + bs.length = n := by
      rw [List.length_append, List.length_singleton]
      omega
    refine ⟨_, receiveByte_payload (h.continues.ready hr) b t (h.receivingData hroom) hfits, ?_⟩
    rw [List.append_cons]
    exact ih hlen' (h.store hroom b)

/-- With the whole payload received, the running CRC covers the frame and nothing else (R86, R112). -/
theorem InPayload.covered {s u : State} {kind : Kind} {seq : Seq} {payload : List Byte}
    (h : InPayload s kind seq payload.length payload u) :
    u.rxLc = (lengthFields payload.length).1 ∧
      u.rxCrc = crcOver s.crcUpdate crcInit (coveredBytes kind seq payload) := by
  obtain ⟨-, -, hcovered⟩ := h.crcInv
  obtain ⟨hlc, hcrc⟩ := hcovered (by simp [h.rxState, RxState.inPayload])
  rw [h.rxLen] at hlc
  rw [h.rxKind, h.rxSeq, h.rxLen, h.stored, hlc, h.continues.crcUpdate] at hcrc
  exact ⟨hlc, hcrc⟩

/-- The frame is complete in `w` but for its last byte `lo`, which ends it with its dispatch. -/
structure AwaitsLastByte (s : State) (kind : Kind) (seq : Seq) (payload : List Byte) (lo : Byte) (w : State) :
    Prop where
  continues : Continues s w
  rxState : w.rxState = .expectCrcLow
  rxKind : w.rxKind = kind
  rxSeq : w.rxSeq = seq
  rxLc : w.rxLc = (lengthFields payload.length).1
  rxLen : w.rxLen = payload.length
  stored : storedBytes w = payload
  crcMatches : receivedCrc w.rxCrcHi lo = w.rxCrc

/-- The first byte of the trailer is kept (R128). -/
theorem afterBytes_crcHigh {s u : State} (hr : Ready s) {kind : Kind} {seq : Seq} {payload : List Byte}
    (h : InPayload s kind seq payload.length payload u) {c : Crc}
    (hc : c = crcOver s.crcUpdate crcInit (coveredBytes kind seq payload)) :
    AfterBytes (AwaitsLastByte s kind seq payload (c.extractLsb' 0 8)) [c.extractLsb' 8 8] u := by
  have hstate : u.rxState = .expectCrcHigh := by rw [h.rxState, if_pos rfl]
  obtain ⟨hlc, hcrc⟩ := h.covered
  exact AfterBytes.single (fun t => receiveByte_crcHigh (h.continues.ready hr) _ t hstate) {
    continues := h.continues.trans (.of_sameTrace rfl rfl rfl rfl rfl rfl)
    rxState := rfl
    rxKind := h.rxKind
    rxSeq := h.rxSeq
    rxLc := hlc
    rxLen := h.rxLen
    stored := h.stored
    crcMatches := (receivedCrc_bytes c).trans (hc.trans hcrc.symm) }

/-- All bytes of an encoded frame but the last, from the state of an engine between frames. -/
theorem afterBytes_frame {s : State} (hr : Ready s) (hs : s.rxState = .expectPreamble ∨ s.rxState = .notPreamble)
    (hsize : 768 ≤ s.cfg.rxBufSize) (kind : Kind) (seq : Seq) {payload : List Byte} (hlen : payload.length ≤ 768)
    {c : Crc} (hc : c = crcOver s.crcUpdate crcInit (coveredBytes kind seq payload)) :
    AfterBytes (AwaitsLastByte s kind seq payload (c.extractLsb' 0 8))
      ([preambleByte] ++ (coveredBytes kind seq payload ++ [c.extractLsb' 8 8])) s := by
  refine (afterBytes_preamble hr hs).append fun u ⟨hu, hcrc, hheader⟩ => ?_
  have announced := afterBytes_header hr hu hcrc hheader kind seq hlen
  have received := announced.append fun v hv => afterBytes_payload hr hsize hlen (Nat.zero_add _) hv
  exact received.append fun w hw => afterBytes_crcHigh hr hw hc

/-- `v` is an engine that began in `s` and has received a whole valid frame, just before its dispatch. -/
structure FrameEnded (s : State) (kind : Kind) (seq : Seq) (payload : List Byte) (v : State) : Prop where
  continues : Continues s v
  rxState : v.rxState = .expectPreamble
  rxKind : v.rxKind = kind
  rxSeq : v.rxSeq = seq
  rxLc : v.rxLc = (lengthFields payload.length).1
  rxLen : v.rxLen = payload.length
  rxCount : v.rxCount = payload.length
  rxPayload : rxPayload v = .ok payload

theorem AwaitsLastByte.frameEnded {s w : State} {kind : Kind} {seq : Seq} {payload : List Byte} {lo : Byte}
    (h : AwaitsLastByte s kind seq payload lo w) (hsize : payload.length ≤ s.cfg.rxBufSize) (t : Nat) :
    FrameEnded s kind seq payload (endFrame t w) := by
  have hcount : w.rxCount = payload.length := by rw [← storedBytes_length, h.stored]
  have hfits : w.rxLen ≤ w.cfg.rxBufSize := by rwa [h.rxLen, h.continues.cfg]
  have hread : Machine.rxPayload w = .ok payload := by
    rw [rxPayload_eq w hfits, h.rxLen, ← hcount]
    exact congrArg Except.ok h.stored
  exact {
    continues := h.continues.trans (endFrame_continues t w)
    rxState := endFrame_rxState w t
    rxKind := (endFrame_rxKind w t).trans h.rxKind
    rxSeq := (endFrame_rxSeq w t).trans h.rxSeq
    rxLc := (endFrame_rxLc w t).trans h.rxLc
    rxLen := (endFrame_rxLen w t).trans h.rxLen
    rxCount := (endFrame_rxCount w t).trans hcount
    rxPayload := (rxPayload_congr (endFrame_rxLen w t) (endFrame_rxBuf w t) (endFrame_rxBufFill w t)
      (endFrame_cfg w t)).trans hread }

/-- The dispatch of a frame received is its header row (R97, R200). -/
theorem FrameEnded.frameRow_eq {s v : State} (hr : Ready s) {kind : Kind} {seq : Seq} {payload : List Byte}
    (hlen : payload.length ≤ 768) (h : FrameEnded s kind seq payload v) (t : Nat) :
    exec (frameRow kind seq (lengthFields payload.length).1 t) v = dispatch t v := by
  have noLength (h0 : v.rxLc = 0) : v.rxLen = 0 ∧ v.rxCount = 0 := by
    rw [h.rxLen, h.rxCount]
    exact and_self_iff.2 (eq_zero_of_lengthFields_class hlen (h.rxLc.symm.trans h0))
  rw [← frameRow_eq_dispatch (h.continues.ready hr) t noLength, h.rxKind, h.rxSeq, h.rxLc]

/-- A frame whose kind has a callback opens its window (R200, R201). -/
theorem FrameEnded.pktRx {s v : State} {kind : Kind} {seq : Seq} {payload : List Byte}
    (h : FrameEnded s kind seq payload v) (hk : kind = .unsync ∨ kind = .sync) (t : Nat) :
    ∃ u, dispatch t v = .next u ∧ u.ctx = .inRxCallback ∧ u.trace = v.trace ++ [.pktRx kind seq payload] := by
  have opened : deliver payload t v = openWindow kind seq payload v := by
    rcases hk with rfl | rfl <;> simp only [deliver, h.rxKind, h.rxSeq]
  exact ⟨_, (withPayload_ok h.rxPayload _).trans (congrArg (finish none) opened), rfl, rfl⟩

/-- Settles O29: all bytes but the last lead to `AwaitsLastByte`, and the last one ends the frame with its dispatch. -/
theorem encodedFrameIsReceived : Obligations.EncodedFrameIsReceived := by
  intro s kind seq payload times t hr hs hsize hlen frame run htimes
  obtain ⟨c, hc⟩ : ∃ c, c = crcOver s.crcUpdate crcInit (coveredBytes kind seq payload) := ⟨_, rfl⟩
  have hframe : frame =
      ([preambleByte] ++ (coveredBytes kind seq payload ++ [c.extractLsb' 8 8])) ++ [c.extractLsb' 0 8] := by
    simp [frame, encodeFrame, trailer, ← hc]
  rw [hframe, List.length_append, List.length_singleton, Nat.add_right_cancel_iff] at htimes
  obtain ⟨w, hw, awaits⟩ := (afterBytes_frame hr hs hsize kind seq hlen hc).execAll htimes
  have ended := awaits.frameEnded (hlen.trans hsize) t
  have hrun : run = dispatch t (endFrame t w) := by
    rw [← receiveByte_crcLow_match (awaits.continues.ready hr) _ t awaits.rxState awaits.crcMatches,
      ← execAll_singleton, ← execAll_append_of_next hw, ← receiveAt_concat htimes, ← hframe]
  obtain ⟨l, htrace, hquiet⟩ := ended.continues.trace
  refine ⟨endFrame t w, l, hrun.trans (ended.frameRow_eq hr hlen t).symm, ended.continues.ready hr, ended.rxState,
    ended.rxKind, ended.rxSeq, ended.rxLen, ended.rxPayload, htrace, hquiet, fun hk => ?_⟩
  rw [hrun]
  exact ended.pktRx hk t

end Sys2Proof.Machine

/-! ## The timer multiplexer

A multiplexer operation and a tick both end in a reschedule, so PRIM after either is what the reschedule commands
(R157). Accruing at rising samples is accruing once at the last of them (R158). A tick takes the elapsed time off both
records and disables those then due, which is `Timer.ticked`. The handlers of the due timers run after that, and a
reschedule ends the tick (R155, R156). -/

namespace Sys2Proof.Machine

/-! ### Elapsed time -/

/-- Settles O31: `accrue` updates both records by their elapsed times. -/
theorem accrueSubtractsElapsedTime : Obligations.AccrueSubtractsElapsedTime := fun _ _ => rfl

/-- No time has elapsed since the last update. -/
theorem Timer.accrue_at_last (tm : Timer) : tm.accrue tm.last = tm := by
  simp [Timer.accrue]

@[simp] theorem timer_accrue (T : TimerId) (t : Nat) (s : State) : timer T (accrue t s) = (timer T s).accrue t := by
  cases T <;> rfl

theorem le_of_risesTo {t0 t1 : Nat} {ts : List Nat} (h : risesTo t0 t1 ts) : t0 ≤ t1 := by
  induction ts generalizing t0 with
  | nil => exact h.ge
  | cons t ts ih => exact h.1.trans (ih h.2)

/-- Updates at rising samples are the one update at the last of them (R158). -/
theorem timer_foldl_accrue {T : TimerId} {s : State} {t1 : Nat} {ts : List Nat} (h : risesTo (timer T s).last t1 ts) :
    timer T (ts.foldl (fun u t => accrue t u) s) = (timer T s).accrue t1 := by
  induction ts generalizing s with
  | nil => cases h; exact (Timer.accrue_at_last _).symm
  | cons t ts ih =>
    obtain ⟨hle, hrest⟩ := h
    have rest : risesTo (timer T (accrue t s)).last t1 ts := by rwa [timer_accrue]
    rw [List.foldl_cons, ih rest, timer_accrue, timer_accrue_accrue _ hle (le_of_risesTo hrest)]

/-- Settles O34: the updates are one update at the last sample. -/
theorem elapsedTimeDoesNotDrift : Obligations.ElapsedTimeDoesNotDrift := by
  rintro T s d t0 t1 ts rfl rfl hrises -
  rw [timer_foldl_accrue hrises]
  exact ⟨rfl, rfl, rfl⟩

/-! ### The operations of the multiplexer -/

/-- Settles O32: the command is the one the enables ask for. -/
theorem rescheduleCommandsTheSoonest : Obligations.RescheduleCommandsTheSoonest := reschedule_eq_commanded

/-- Settles O33: both operations accrue, write one record and reschedule. -/
theorem setAndCancelOfATimer : Obligations.SetAndCancelOfATimer := by
  intro d t s rx ack on after
  simp only [muxSet, muxCancel, reschedule_eq_commanded]
  exact ⟨rfl, rfl, rfl, rfl⟩

theorem reschedule_prim_commanded (t : Nat) (s : State) :
    (reschedule t s).prim = (commanded t (reschedule t s).tmrRx (reschedule t s).tmrAck).2 :=
  deadlinePrim_soonest t s

theorem exec_tick {s : State} (hr : Ready s) (t : Nat) : exec (.tick t) s = .next { runTick t s with result := none } :=
  whenIdle_pass hr _

/-- Settles O35: each of them ends in a reschedule. -/
theorem primFollowsEveryTimerOperation : Obligations.PrimFollowsEveryTimerOperation := by
  refine ⟨fun T d t s => ⟨reschedule_prim_commanded t _, reschedule_prim_commanded t _⟩, fun s u t hr hu => ?_⟩
  cases (exec_tick hr t).symm.trans hu
  exact reschedule_prim_commanded t _

/-! ### The timers due at a tick -/

/-- A tick at `t` fires the timer (R154). -/
abbrev Timer.DueAt (t : Nat) (tm : Timer) : Prop := tm.en = true ∧ tm.rem - (t - tm.last) = 0

theorem Timer.accrue_fires_iff (t : Nat) (tm : Timer) : (tm.accrue t).fires = true ↔ tm.DueAt t :=
  Timer.fires_iff _

/-- The record before the handlers of a tick run: the elapsed time is off it, and it is disabled if due (R155). -/
def Timer.ticked (t : Nat) (tm : Timer) : Timer := { tm.accrue t with en := tm.en && !decide (tm.DueAt t) }

theorem Timer.ticked_of_not_due {t : Nat} {tm : Timer} (h : ¬ tm.DueAt t) : tm.ticked t = tm.accrue t := by
  simp only [Timer.ticked, decide_eq_false h, Bool.not_false, Bool.and_true, Timer.accrue]

theorem Timer.ticked_of_due {t : Nat} {tm : Timer} (h : tm.DueAt t) :
    tm.ticked t = { en := false, rem := 0, last := t } := by
  simp only [Timer.ticked, decide_eq_true h, Bool.not_true, Bool.and_false, Timer.accrue, h.2]

theorem Timer.ticked_accrue (t : Nat) (tm : Timer) : (tm.ticked t).accrue t = tm.ticked t :=
  (tm.ticked t).accrue_at_last

theorem disarmFired_accrue (t : Nat) (s : State) :
    disarmFired (accrue t s) = { s with tmrRx := s.tmrRx.ticked t, tmrAck := s.tmrAck.ticked t } := by
  have fires (tm : Timer) : (tm.accrue t).fires = decide (tm.DueAt t) := by
    rw [Bool.eq_iff_iff, decide_eq_true_iff, Timer.accrue_fires_iff]
  simp only [disarmFired, accrue, fires]
  rfl

/-- A receive timer that is due sends the RxTimeout NACK and puts the parser at a frame boundary (R131). -/
theorem afterRxHandler_eq (t : Nat) (s : State) : afterRxHandler t s = { s with
    tmrRx := s.tmrRx.ticked t
    tmrAck := s.tmrAck.ticked t
    rxState := if s.tmrRx.DueAt t then .expectPreamble else s.rxState
    trace := s.trace ++ if s.tmrRx.DueAt t then wires (encodeFrame s.crcUpdate .nack s.rxSeq [3]) else [] } := by
  simp only [afterRxHandler, Timer.accrue_fires_iff, disarmFired_accrue]
  split
  · rfl
  · rw [List.append_nil]

theorem runTick_of_ack_due {t : Nat} {s : State} (h : s.tmrAck.DueAt t) :
    runTick t s = reschedule t (ackTimeoutTrigger t (afterRxHandler t s)) := by
  rw [runTick_eq_afterRxHandler, if_pos ((Timer.accrue_fires_iff t _).2 h)]

theorem runTick_of_ack_not_due {t : Nat} {s : State} (h : ¬ s.tmrAck.DueAt t) :
    runTick t s = reschedule t (afterRxHandler t s) := by
  rw [runTick_eq_afterRxHandler, if_neg fun hf => h ((Timer.accrue_fires_iff t _).1 hf)]

/-- Settles O36: with no handler to run, the records are accrued and the reschedule is left. -/
theorem tickWithNothingDueFiresNothing : Obligations.TickWithNothingDueFiresNothing := by
  intro s t hr rx ack hrx hack
  rw [exec_tick hr, runTick_of_ack_not_due hack, afterRxHandler_eq, if_neg hrx, if_neg hrx, Timer.ticked_of_not_due hrx,
    Timer.ticked_of_not_due hack, List.append_nil, reschedule_eq_commanded]
  rfl

/-! ### The ack timeout -/

theorem ackTimeoutTrigger_of_spent {s : State} (hout : s.awaitingAck = true) (h : s.cfg.maxRetries < s.retryCount + 1)
    (t : Nat) : ackTimeoutTrigger t s = abandon { s with retryCount := s.retryCount + 1 } := by
  rw [ackTimeoutTrigger, if_pos hout]
  exact if_pos (decide_eq_true h)

theorem ackTimeoutTrigger_of_not_spent {s : State} (hout : s.awaitingAck = true)
    (h : ¬ s.cfg.maxRetries < s.retryCount + 1) (t : Nat) :
    ackTimeoutTrigger t s = retransmit t { s with retryCount := s.retryCount + 1 } := by
  rw [ackTimeoutTrigger, if_pos hout]
  exact if_neg (by simpa [retrySpent] using h)

/-- The stored frame goes out again and the ack timer is armed for it (R178). -/
theorem retransmit_eq (t : Nat) (s : State) : retransmit t s = { s with
    tmrRx := s.tmrRx.accrue t
    tmrAck := { en := true, rem := s.cfg.retryDelay, last := t }
    trace := s.trace ++ wires s.txFrame ++
      [(commanded t (s.tmrRx.accrue t) { en := true, rem := s.cfg.retryDelay, last := t }).1]
    prim := (commanded t (s.tmrRx.accrue t) { en := true, rem := s.cfg.retryDelay, last := t }).2 } := by
  obtain ⟨-, armed, -⟩ := setAndCancelOfATimer s.cfg.retryDelay t (emitFrame s.txFrame s)
  exact armed

/-- Settles O38: the receive timer's handler, if due, then the two cases of the retry count, then the reschedule. -/
theorem ackTimeoutFollowsReceiveTimeout : Obligations.AckTimeoutFollowsReceiveTimeout := by
  intro s t hr hout hen hrem fireRx spent rx ack command
  have due : s.tmrAck.DueAt t := ⟨hen, hrem⟩
  rw [exec_tick hr, runTick_of_ack_due due, afterRxHandler_eq, Timer.ticked_of_due due]
  by_cases h : spent
  · rw [ackTimeoutTrigger_of_spent (by exact hout) (by exact h), reschedule_eq_commanded]
    simp only [command, ack, if_pos h, decide_eq_true h]
    rfl
  · rw [ackTimeoutTrigger_of_not_spent (by exact hout) (by exact h), retransmit_eq, reschedule_eq_commanded]
    simp only [command, ack, if_neg h, decide_eq_false h, hout, Timer.ticked_accrue, ← List.append_assoc]
    rfl

end Sys2Proof.Machine

/-! ## Sending, retrying and settling

An encoded frame and the send path come first. The retry trigger and the correlator then have an equation per case, and
from these follow the statements on a received ACK and NACK. A run of ticks with no answer is followed by induction on
the retries left: each tick retransmits the stored frame and leaves one retry fewer, and the last one abandons the
packet. -/

namespace Sys2Proof.Machine

/-! ### The sequence numbers and the encoded frame -/

/-- Settles O39: `nextSeq` by its two cases, and the number before each one. -/
theorem nextSeqWrapsSkippingZero : Obligations.NextSeqWrapsSkippingZero :=
  ⟨rfl, fun _ h => if_neg h, fun s _ => nextSeq_ne_zero s, by decide⟩

theorem lengthFields_bytes_length (n : Nat) : (lengthFields n).2.length = if n = 0 then 0 else 1 := by
  unfold lengthFields
  split <;> rfl

/-- The parts of an encoded frame, in order (R171). -/
theorem encodeFrame_eq_append (update : CrcUpdate) (kind : Kind) (seq : Seq) (payload : List Byte) :
    encodeFrame update kind seq payload =
      [preambleByte, headerByte kind seq (lengthFields payload.length).1] ++ (lengthFields payload.length).2 ++
        payload ++ trailer (crcOver update crcInit (coveredBytes kind seq payload)) := by
  simp [encodeFrame, coveredBytes]

/-- Preamble, header and trailer are four bytes; a payload comes with a LenByte (R88). -/
theorem encodeFrame_length (update : CrcUpdate) (kind : Kind) (seq : Seq) (payload : List Byte) :
    (encodeFrame update kind seq payload).length = if payload = [] then 4 else 5 + payload.length := by
  rw [encodeFrame_eq_append]
  simp only [List.length_append, lengthFields_bytes_length, List.length_eq_zero_iff, trailer, List.length_cons,
    List.length_nil]
  split
  next h => rw [h]; rfl
  next => omega

/-- Settles O4: the parts by `encodeFrame_eq_append`, whose trailer joins to the CRC, and the length by
`encodeFrame_length`. -/
theorem encodedFrameLayout : Obligations.EncodedFrameLayout := by
  intro update kind seq payload hmax
  have hlen := encodeFrame_length update kind seq payload
  refine ⟨_, _, _, rfl, encodeFrame_eq_append update kind seq payload, receivedCrc_bytes _, hlen, ?_⟩
  rw [hlen]
  split <;> omega

/-! ### The send path -/

/-- An accepted transmit is busy or sends (R174 to R176). -/
theorem exec_transmit {s : State} (hr : Ready s) (requiresAck : Bool) {p : List Byte} (hp : p.length ≤ maxPayload)
    (t : Nat) : exec (.transmit requiresAck p t) s =
      if txBusy requiresAck s then finish (some .busy) s
      else finish (some .ok) (if requiresAck then sendSync p t s else sendUnsync p s) :=
  (whenIdle_pass hr _).trans (if_neg (Nat.not_lt_of_le hp))

theorem exec_transmit_unsync {s : State} (hr : Ready s) {p : List Byte} (hp : p.length ≤ maxPayload) (t : Nat) :
    exec (.transmit false p t) s = finish (some .ok) (sendUnsync p s) :=
  exec_transmit hr false hp t

theorem exec_transmit_sync_busy {s : State} (hr : Ready s) (hout : s.awaitingAck = true) {p : List Byte}
    (hp : p.length ≤ maxPayload) (t : Nat) : exec (.transmit true p t) s = finish (some .busy) s :=
  (exec_transmit hr true hp t).trans (if_pos hout)

theorem exec_transmit_sync {s : State} (hr : Ready s) (hfree : s.awaitingAck = false) {p : List Byte}
    (hp : p.length ≤ maxPayload) (t : Nat) :
    exec (.transmit true p t) s = finish (some .ok) (sendSync p t s) :=
  (exec_transmit hr true hp t).trans (if_neg (Bool.eq_false_iff.1 hfree))

/-- Settles O40: only the synchronized transmit asks whether a packet is outstanding. -/
theorem secondSyncTransmitIsBusy : Obligations.SecondSyncTransmitIsBusy :=
  ⟨fun _ _ t hr hp hout => exec_transmit_sync_busy hr hout hp t,
    fun _ _ t hr hp => ⟨_, exec_transmit_unsync hr hp t, rfl⟩⟩

/-- Settles O41: the packet is stored, and the ack timer armed by `setAndCancelOfATimer`; the other path only emits. -/
theorem transmitSendsTheFrame : Obligations.TransmitSendsTheFrame := by
  refine ⟨fun s p t hr hp hfree => ?_, fun s p t hr hp => exec_transmit_unsync hr hp t⟩
  obtain ⟨-, armed, -⟩ := setAndCancelOfATimer s.cfg.retryDelay t (storeTx p (sendFrame .sync s.txSequence p s))
  rw [exec_transmit_sync hr hfree hp, sendSync, armed]
  rfl

/-! ### The retry trigger -/

theorem ackTimeoutTrigger_of_not_awaiting {s : State} (h : s.awaitingAck = false) (t : Nat) :
    ackTimeoutTrigger t s = s :=
  if_neg (Bool.eq_false_iff.1 h)

/-- Settles O42: an equation per case. -/
theorem ackTimeoutTriggerRetriesOrAbandons : Obligations.AckTimeoutTriggerRetriesOrAbandons :=
  ⟨fun t _ h => ackTimeoutTrigger_of_not_awaiting h t,
    fun t _ hout h => ackTimeoutTrigger_of_spent hout h t,
    fun t _ hout h => ackTimeoutTrigger_of_not_spent hout (Nat.not_lt_of_le h) t⟩

/-! ### The correlator -/

/-- The result is nothing that a payload read looks at. -/
theorem rxPayload_setResult (r : Option Result) (s : State) : rxPayload { s with result := r } = rxPayload s :=
  rxPayload_congr rfl rfl rfl rfl

/-- An ACK frame goes to the correlator with the payload that the buffer holds (R181, R200). -/
theorem exec_hdrAck {s : State} (hr : Ready s) {seq : Seq} {len : LenClass} {p : List Byte}
    (hp : rxPayload (latchHeader .ack seq len s) = .ok p) (t : Nat) :
    exec (.hdrAck seq len t) s = finish none (ackReceived seq p t (latchHeader .ack seq len s)) :=
  (whenIdle_pass hr _).trans (withPayload_ok hp _)

/-- A NACK frame goes to the correlator with the payload that the buffer holds (R182, R200). -/
theorem exec_hdrNack {s : State} (hr : Ready s) {seq : Seq} {len : LenClass} {p : List Byte}
    (hp : rxPayload (latchHeader .nack seq len s) = .ok p) (t : Nat) :
    exec (.hdrNack seq len t) s = finish none (nackReceived seq p t (latchHeader .nack seq len s)) :=
  (whenIdle_pass hr _).trans (withPayload_ok hp _)

/-- An ACK for the outstanding packet cancels the ack timer, settles the packet and delivers the payload (R181). -/
theorem ackReceived_of_match {seq : Seq} {s : State} (h : s.awaitingAck = true ∧ seq = s.txSeq) (p : List Byte)
    (t : Nat) : ackReceived seq p t s = { s with
      tmrRx := s.tmrRx.accrue t
      tmrAck := { s.tmrAck.accrue t with en := false }
      awaitingAck := false, txSequence := nextSeq s.txSequence
      trace := s.trace ++
        [(commanded t (s.tmrRx.accrue t) { s.tmrAck.accrue t with en := false }).1, .ackRx seq p]
      prim := (commanded t (s.tmrRx.accrue t) { s.tmrAck.accrue t with en := false }).2 } := by
  obtain ⟨-, -, -, cancelled⟩ := setAndCancelOfATimer 0 t s
  rw [ackReceived, if_pos ((matchesOutstanding_iff seq s).2 h), cancelled, emit, settle, List.append_assoc]
  rfl

theorem ackReceived_of_no_match {seq : Seq} {s : State} (h : ¬ (s.awaitingAck = true ∧ seq = s.txSeq))
    (p : List Byte) (t : Nat) : ackReceived seq p t s = s :=
  if_neg (mt (matchesOutstanding_iff seq s).1 h)

/-- Settles O45: the frame is the correlator's, with its two cases. -/
theorem ackSettlesTheOutstandingPacket : Obligations.AckSettlesTheOutstandingPacket := by
  intro s seq len t p hr h hp
  let latched := latchHeader .ack seq len s
  have received := exec_hdrAck hr ((rxPayload_setResult none latched).symm.trans hp) t
  exact ⟨fun hmatch => received.trans (congrArg (finish none) (ackReceived_of_match (s := latched) hmatch p t)),
    fun hother => received.trans (congrArg (finish none) (ackReceived_of_no_match (s := latched) hother p t))⟩

/-- A NACK with a code retransmits now only for the outstanding packet and a code that is not transient (R182). -/
theorem nackCodeReceived_eq_ite (seq : Seq) (code : Byte) (t : Nat) (s : State) :
    nackCodeReceived seq code t s =
      if s.awaitingAck = true ∧ seq = s.txSeq ∧ code ≠ 1 ∧ code ≠ 4 then ackTimeoutTrigger t (muxCancel .ack t s)
      else s := by
  have acts : (s.awaitingAck = true ∧ seq = s.txSeq ∧ code ≠ 1 ∧ code ≠ 4) ↔
      matchesOutstanding seq s = true ∧ ¬ transientCode code = true := by
    rw [matchesOutstanding_iff, transientCode_iff, not_or, and_assoc]
  simp only [acts, ite_and, ite_not]
  rfl

/-- For the outstanding packet a NACK frame without a payload is one with the code drawn (R182). -/
theorem emptyNackReceived_of_match {seq : Seq} {s : State} (h : s.awaitingAck = true ∧ seq = s.txSeq) (t : Nat) :
    emptyNackReceived seq t s =
      nackCodeReceived seq (Config.drawByte s.draws) t { s with draws := s.draws + 1 } := by
  have hmatch := (matchesOutstanding_iff seq s).2 h
  exact (if_pos hmatch).trans (if_pos hmatch).symm

theorem emptyNackReceived_of_no_match {seq : Seq} {s : State} (h : ¬ (s.awaitingAck = true ∧ seq = s.txSeq))
    (t : Nat) : emptyNackReceived seq t s = s :=
  if_neg (mt (matchesOutstanding_iff seq s).1 h)

/-- Settles O46: every row and every frame with a code is `nackCodeReceived`, and an empty frame draws its code. -/
theorem nackWaitsOrRetransmits : Obligations.NackWaitsOrRetransmits := by
  unfold Obligations.NackWaitsOrRetransmits
  intro after
  have byCode (seq : Seq) (code : Byte) (t : Nat) (u : State) :
      finish none (nackCodeReceived seq code t u) = .next (after seq code t u) := by
    rw [nackCodeReceived_eq_ite]
    simp only [after]
    split <;> rfl
  constructor
  · intro s t code hr
    have row (c : Byte) : execNackCode c t s = .next (after s.rxSeq c t s) := (whenIdle_pass hr _).trans (byCode ..)
    exact ⟨row 1, row 2, row 3, row 4, row code⟩
  · intro s seq len t p hr h hp
    rw [exec_hdrNack hr hp]
    cases p with
    | cons code p => exact byCode seq code t h
    | nil =>
      by_cases hmatch : s.awaitingAck = true ∧ seq = s.txSeq
      · simp only [if_pos hmatch, ← byCode]
        exact congrArg (finish none) (emptyNackReceived_of_match (s := h) hmatch t)
      · simp only [if_neg hmatch]
        exact congrArg (finish none) (emptyNackReceived_of_no_match (s := h) hmatch t)

/-! ### The TX store while a packet is outstanding -/

theorem parsed_sameTxStore {b : Byte} {t : Nat} {s u : State} (hu : Parsed b t s u) : SameTxStore s u := by
  cases hu <;> simp [SameTxStore]

/-- Only a synchronized send, which a packet outstanding keeps out, and init write the TX store (R64). -/
theorem action_sameTxStore {i : Instr} {s u : State} (hout : s.awaitingAck = true) (hi : isInit i = false)
    (hu : Action i s u) : SameTxStore s u := by
  cases hu with
  | byte _ _ _ hp | preambleRow _ _ hp => exact parsed_sameTxStore hp
  | sendSync _ _ _ hfree => rw [hout] at hfree; cases hfree
  | init => cases hi
  | tick | busy | sendUnsync | invalidState | reply | cbReturn | openUnsync | openSync | ack | nack | nackCode =>
    simp [SameTxStore]

/-- Settles O44: a fault recorded and every action keep the store. -/
theorem outstandingPacketIsKept : Obligations.OutstandingPacketIsKept := by
  intro i s t hout hi ht
  rcases exec_next ht with ⟨f, rfl⟩ | ⟨u, r, hu, rfl⟩
  · exact ⟨rfl, rfl, rfl, rfl⟩
  · exact action_sameTxStore (u := u) hout hi hu

/-! ### A packet that is never answered -/

/-- With no frame in progress, the packet outstanding in `s` was last sent at `t0` and may be sent `n` times more. -/
structure RetriesLeft (t0 n : Nat) (s : State) : Prop where
  ready : Ready s
  awaitingAck : s.awaitingAck = true
  tmrRx_en : s.tmrRx.en = false
  tmrAck : s.tmrAck = { en := true, rem := s.cfg.retryDelay, last := t0 }
  retryCount : s.retryCount + n = s.cfg.maxRetries

/-- `s` after a tick at `t` that sends the stored frame again, with no frame in progress (R156, R178). -/
def retried (t : Nat) (s : State) : State := { s with
  tmrRx := s.tmrRx.accrue t
  tmrAck := { en := true, rem := s.cfg.retryDelay, last := t }
  retryCount := s.retryCount + 1
  trace := s.trace ++ (wires s.txFrame ++ [.arm s.cfg.retryDelay, .arm s.cfg.retryDelay])
  prim := .armed (t + s.cfg.retryDelay), result := none }

/-- `s` after a tick at `t` that abandons the outstanding packet, with no frame in progress (R156, R178). -/
def abandonedAt (t : Nat) (s : State) : State := { s with
  tmrRx := s.tmrRx.accrue t
  tmrAck := { en := false, rem := 0, last := t }
  retryCount := s.retryCount + 1, awaitingAck := false, txSequence := nextSeq s.txSequence
  trace := s.trace ++ [.timeout s.txSeq s.txPayload, .cancel]
  prim := .idle, result := none }

section
variable {t0 n t : Nat} {s : State}

/-- The next attempt exceeds the limit just where no retry is left (R178). -/
theorem RetriesLeft.spent_iff (h : RetriesLeft t0 n s) : s.cfg.maxRetries < s.retryCount + 1 ↔ n = 0 := by
  have := h.retryCount
  omega

theorem RetriesLeft.tmrAck_due (h : RetriesLeft t0 n s) (ht : t0 + s.cfg.retryDelay ≤ t) : s.tmrAck.DueAt t := by
  rw [h.tmrAck]
  exact ⟨rfl, Nat.sub_eq_zero_of_le (Nat.le_sub_of_add_le' ht)⟩

theorem RetriesLeft.after_retried (h : RetriesLeft t0 (n + 1) s) (t : Nat) : RetriesLeft t n (retried t s) :=
  ⟨h.ready, h.awaitingAck, h.tmrRx_en, rfl, (Nat.succ_add_eq_add_succ _ _).trans h.retryCount⟩

/-- A tick at or after the deadline, with a retry left. -/
theorem RetriesLeft.exec_tick_succ (h : RetriesLeft t0 (n + 1) s) (ht : t0 + s.cfg.retryDelay ≤ t) :
    exec (.tick t) s = .next (retried t s) := by
  obtain ⟨hen, hrem⟩ := h.tmrAck_due ht
  have tick := ackTimeoutFollowsReceiveTimeout s t h.ready h.awaitingAck hen hrem
  simpa [h.tmrRx_en, h.spent_iff, commanded, retried, Timer.accrue, h.awaitingAck] using tick

/-- A tick at or after the deadline, with no retry left. -/
theorem RetriesLeft.exec_tick_zero (h : RetriesLeft t0 0 s) (ht : t0 + s.cfg.retryDelay ≤ t) :
    exec (.tick t) s = .next (abandonedAt t s) := by
  obtain ⟨hen, hrem⟩ := h.tmrAck_due ht
  have tick := ackTimeoutFollowsReceiveTimeout s t h.ready h.awaitingAck hen hrem
  simpa [h.tmrRx_en, h.spent_iff, commanded, abandonedAt, Timer.accrue] using tick

end

/-- `u` comes from `s` by `n` retransmissions of the stored frame and the abandonment of the packet, and nothing is
outstanding in it. -/
structure Exhausted (n : Nat) (s u : State) : Prop where
  trace : u.trace = s.trace ++
    (List.replicate n (wires s.txFrame ++ [.arm s.cfg.retryDelay, .arm s.cfg.retryDelay])).flatten ++
      [.timeout s.txSeq s.txPayload, .cancel]
  awaitingAck : u.awaitingAck = false
  txSequence : u.txSequence = nextSeq s.txSequence
  tmrAck_en : u.tmrAck.en = false
  prim : u.prim = .idle

theorem abandonedAt_exhausted (t : Nat) (s : State) : Exhausted 0 s (abandonedAt t s) :=
  ⟨by simp [abandonedAt], rfl, rfl, rfl, rfl⟩

/-- One retransmission before the others. -/
theorem Exhausted.of_retried {n t : Nat} {s u : State} (h : Exhausted n (retried t s) u) : Exhausted (n + 1) s u :=
  ⟨by rw [h.trace, List.replicate_succ, List.flatten_cons]; simp [retried], h.awaitingAck, h.txSequence, h.tmrAck_en,
    h.prim⟩

/-- Each tick retransmits and leaves one retry fewer, and the last one abandons the packet. -/
theorem RetriesLeft.exhausted {t0 n : Nat} {s : State} {ts : List Nat} (h : RetriesLeft t0 n s)
    (hlen : ts.length = n + 1) (hspaced : spacedBy s.cfg.retryDelay t0 ts) :
    ∃ u, execAll (ts.map .tick) s = .next u ∧ Exhausted n s u := by
  induction n generalizing t0 s ts with
  | zero =>
    obtain ⟨t, rfl⟩ := List.length_eq_one_iff.1 hlen
    exact ⟨_, (execAll_singleton ..).trans (h.exec_tick_zero hspaced.1), abandonedAt_exhausted t s⟩
  | succ n ih =>
    obtain ⟨t, ts, rfl⟩ := List.exists_cons_of_length_eq_add_one hlen
    obtain ⟨hdue, hrest⟩ := hspaced
    obtain ⟨u, hrun, hu⟩ := ih (h.after_retried t) (Nat.succ.inj hlen) hrest
    exact ⟨u, (execAll_cons_of_next (h.exec_tick_succ hdue) _).trans hrun, hu.of_retried⟩

/-- Settles O43: all retries are left at the start. -/
theorem retriesAreExhaustedAfterN : Obligations.RetriesAreExhaustedAfterN := by
  intro s t0 ts hr hout hcount hrx hack hlen hspaced
  have left : RetriesLeft t0 s.cfg.maxRetries s := ⟨hr, hout, hrx, hack, by rw [hcount, Nat.zero_add]⟩
  obtain ⟨u, hrun, hu⟩ := left.exhausted hlen hspaced
  exact ⟨u, hrun, hu.trace, hu.awaitingAck, hu.txSequence, hu.tmrAck_en, hu.prim⟩

end Sys2Proof.Machine

/-! ## RX dispatch: the callback window

The two header rows that open a window, the return from the callback and the explicit reply have an equation for each
outcome of their checks (R223 to R225). What a window writes is the model's `openWindow`, `closeWindow` and
`sendReply`. -/

namespace Sys2Proof.Machine

/-! ### The checks of the stimuli -/

/-- After a fault the checks that every stimulus begins with refuse it, whatever it would do (R224). -/
theorem unlessFaulted_faulted {s : State} {f : EngineFault} (h : s.fault = some f) (k : Outcome) :
    unlessFaulted s k = .refused (.engineFaulted f) := by
  rw [unlessFaulted, h]

theorem whenAccepting_faulted {s : State} {f : EngineFault} (h : s.fault = some f) (k : Outcome) :
    whenAccepting s k = .refused (.engineFaulted f) :=
  unlessFaulted_faulted h _

theorem ctx_ne_inRxCallback_of_ready {s : State} (h : Ready s) : s.ctx ≠ .inRxCallback := by
  simp [h.2]

/-! ### A window opens -/

/-- Of a header only the payload's length reaches a payload read (R125, R200). -/
theorem rxPayload_latchHeader (kind : Kind) (seq : Seq) (len : LenClass) (s : State) :
    rxPayload (latchHeader kind seq len s) = rxPayload { s with rxLen := if len = 0 then 0 else s.rxLen } :=
  rxPayload_congr rfl rfl rfl rfl

/-- An UNSYNC frame opens a window with the payload that the buffer holds (R200, R201). -/
theorem exec_hdrUnsync {s : State} (hr : Ready s) {seq : Seq} {len : LenClass} {p : List Byte}
    (hp : rxPayload (latchHeader .unsync seq len s) = .ok p) :
    exec (.hdrUnsync seq len) s = finish none (openWindow .unsync seq p (latchHeader .unsync seq len s)) :=
  (whenIdle_pass hr _).trans (withPayload_ok hp _)

/-- A SYNC frame opens a window with the payload that the buffer holds (R200, R201). -/
theorem exec_hdrSync {s : State} (hr : Ready s) {seq : Seq} {len : LenClass} {p : List Byte}
    (hp : rxPayload (latchHeader .sync seq len s) = .ok p) :
    exec (.hdrSync seq len) s = finish none (openWindow .sync seq p (latchHeader .sync seq len s)) :=
  (whenIdle_pass hr _).trans (withPayload_ok hp _)

/-- Settles O47: with either header latched the payload is the one given, and the row opens the window. -/
theorem validFrameOpensAWindow : Obligations.ValidFrameOpensAWindow := by
  intro s seq len p hr after hp
  have payload (kind : Kind) : rxPayload (latchHeader kind seq len s) = .ok p :=
    (rxPayload_latchHeader kind seq len s).trans hp
  exact ⟨exec_hdrUnsync hr (payload .unsync), exec_hdrSync hr (payload .sync)⟩

/-! ### The return from the callback -/

theorem exec_cbReturn_inWindow {s : State} (h : InWindow s) : exec .cbReturn s = finish none (closeWindow s) :=
  (whenAccepting_pass h.1 _).trans (if_pos h.2)

theorem exec_cbReturn_ready {s : State} (h : Ready s) : exec .cbReturn s = raise .noWindow s :=
  (whenAccepting_pass h.1 _).trans (if_neg (ctx_ne_inRxCallback_of_ready h))

/-- Settles O49: in a window the return is `closeWindow`, whose auto-ACK `closeWindow_eq` gives. -/
theorem callbackReturnSendsAutoAck : Obligations.CallbackReturnSendsAutoAck :=
  ⟨fun s h => (exec_cbReturn_inWindow h).trans (congrArg (finish none) (closeWindow_eq s)),
    fun _ h => exec_cbReturn_ready h, fun _ _ h => whenAccepting_faulted h _⟩

/-! ### The explicit reply -/

/-- In a window only the payload's length can stop a reply (R203, R225). -/
theorem exec_replyAck_inWindow {s : State} (h : InWindow s) (p : List Byte) :
    exec (.replyAck p) s =
      if maxPayload < p.length then raise .payloadTooLong s else finish (some .ok) (sendReply p s) :=
  (whenAccepting_pass h.1 _).trans (if_pos h.2)

/-- Outside a window a reply has no effect, whatever its length (R203, R225). -/
theorem exec_replyAck_ready {s : State} (h : Ready s) (p : List Byte) :
    exec (.replyAck p) s = finish (some .invalidState) s :=
  (whenAccepting_pass h.1 _).trans (if_neg (ctx_ne_inRxCallback_of_ready h))

/-- Settles O50: the two lengths in a window, no window, and a fault. -/
theorem replyAckSendsAnAck : Obligations.ReplyAckSendsAnAck :=
  ⟨fun _ p h hp => (exec_replyAck_inWindow h p).trans (if_neg (Nat.not_lt_of_le hp)),
    fun _ p h => exec_replyAck_ready h p,
    fun _ p h hp => (exec_replyAck_inWindow h p).trans (if_pos hp),
    fun _ _ _ h => whenAccepting_faulted h _⟩

end Sys2Proof.Machine

/-! ## Exceptions: refusals, model faults and the order of the checks

Every instruction but the reserved codes passes one of three checks before its meaning: `unlessFaulted`, `whenAccepting`
or `whenIdle`, each the one before it with one check more. Which of them it passes decides what refuses it (R224) and
whether a window makes it Reentrant (R223), in any mode and with any payload. -/

namespace Sys2Proof.Machine

/-! ### The check an instruction passes first -/

/-- The instruction is legal only outside a callback window: the three stimuli of R223, and the rows decoded on the wire
(R104). -/
def requiresIdle : Instr → Bool
  | .replyAck _ | .cbReturn | .init _ | .reserved110 | .reserved111 => false
  | _ => true

theorem exec_eq_whenIdle {i : Instr} (hi : requiresIdle i = true) (s : State) :
    ∃ k, exec i s = whenIdle s k := by
  cases i with
  | replyAck | cbReturn | init | reserved110 | reserved111 => cases hi
  | receiveByte | tick | transmit | preamble | hdrUnsync | hdrSync | hdrAck | hdrNack
  | nackNotPreamble | nackBadCrc | nackRxTimeout | nackNotReady | nackOther => exact ⟨_, rfl⟩

theorem exec_eq_whenAccepting {i : Instr} (hres : isReserved i = false) (hinit : isInit i = false) (s : State) :
    ∃ k, exec i s = whenAccepting s k := by
  by_cases hi : requiresIdle i = true
  · obtain ⟨k, hk⟩ := exec_eq_whenIdle hi s
    exact ⟨_, hk⟩
  · cases i with
    | replyAck | cbReturn => exact ⟨_, rfl⟩
    | init => cases hinit
    | reserved110 | reserved111 => cases hres
    | _ => exact absurd rfl hi

theorem exec_eq_unlessFaulted {i : Instr} (hres : isReserved i = false) (s : State) :
    ∃ k, exec i s = unlessFaulted s k := by
  by_cases hinit : isInit i = true
  · cases i with
    | init => exact ⟨_, rfl⟩
    | _ => cases hinit
  · obtain ⟨k, hk⟩ := exec_eq_whenAccepting hres (Bool.eq_false_iff.2 hinit) s
    exact ⟨_, hk⟩

/-! ### Refusal (R224) -/

theorem exec_of_faulted {i : Instr} {s : State} {f : EngineFault} (hf : s.fault = some f)
    (hres : isReserved i = false) : exec i s = .refused (.engineFaulted f) := by
  obtain ⟨k, hk⟩ := exec_eq_unlessFaulted hres s
  rw [hk, unlessFaulted_faulted hf]

theorem whenAccepting_beforeInit {s : State} (hf : s.fault = none) (hs : s.inited = false) (k : Outcome) :
    whenAccepting s k = .refused .beforeInit := by
  rw [whenAccepting, unlessFaulted_pass hf, if_neg (Bool.eq_false_iff.1 hs)]

theorem exec_beforeInit {i : Instr} {s : State} (hf : s.fault = none) (hs : s.inited = false)
    (hres : isReserved i = false) (hinit : isInit i = false) : exec i s = .refused .beforeInit := by
  obtain ⟨k, hk⟩ := exec_eq_whenAccepting hres hinit s
  rw [hk, whenAccepting_beforeInit hf hs]

theorem exec_of_isReserved {i : Instr} (hres : isReserved i = true) (s : State) :
    ∃ c, exec i s = .refused (.reservedCode c) := by
  cases i with
  | reserved110 | reserved111 => exact ⟨_, rfl⟩
  | _ => cases hres

theorem isReserved_of_exec_next {i : Instr} {s t : State} (h : exec i s = .next t) : isReserved i = false := by
  rw [Bool.eq_false_iff]
  intro hres
  obtain ⟨c, hc⟩ := exec_of_isReserved hres s
  cases hc.symm.trans h

theorem fault_of_exec_next {i : Instr} {s t : State} (h : exec i s = .next t) : s.fault = none := by
  obtain ⟨k, hk⟩ := exec_eq_unlessFaulted (isReserved_of_exec_next h) s
  exact (unlessFaulted_next (hk.symm.trans h)).1

theorem inited_or_isInit_of_exec_next {i : Instr} {s t : State} (h : exec i s = .next t) :
    s.inited = true ∨ isInit i = true := by
  by_cases hinit : isInit i = true
  · exact .inr hinit
  · obtain ⟨k, hk⟩ := exec_eq_whenAccepting (isReserved_of_exec_next h) (Bool.eq_false_iff.2 hinit) s
    exact .inl (whenAccepting_next (hk.symm.trans h)).1.2

/-- Settles O13: the three refusals, and a next state means that none of them applied. -/
theorem refusalRules : Obligations.RefusalRules :=
  ⟨fun _ _ _ hf hres => exec_of_faulted hf hres,
    fun _ _ hf hs hres hinit => exec_beforeInit hf hs hres hinit,
    fun _ s hres => exec_of_isReserved hres s,
    fun _ _ _ h => ⟨fault_of_exec_next h, inited_or_isInit_of_exec_next h, isReserved_of_exec_next h⟩⟩

/-! ### Model faults (R222) -/

theorem exec_reentrant {i : Instr} {s : State} (hi : requiresIdle i = true) (h : InWindow s) :
    exec i s = raise .reentrant s := by
  obtain ⟨k, hk⟩ := exec_eq_whenIdle hi s
  rw [hk, whenIdle_inWindow h]

theorem exec_transmit_tooLong {s : State} (hr : Ready s) (requiresAck : Bool) {p : List Byte}
    (hp : maxPayload < p.length) (t : Nat) :
    exec (.transmit requiresAck p t) s = raise .payloadTooLong s :=
  (whenIdle_pass hr _).trans (if_pos hp)

theorem exec_replyAck_tooLong {s : State} (h : InWindow s) {p : List Byte} (hp : maxPayload < p.length) :
    exec (.replyAck p) s = raise .payloadTooLong s :=
  (exec_replyAck_inWindow h p).trans (if_pos hp)

theorem exec_init_badConfig {s : State} {c : Cfg} (hf : s.fault = none) (hc : c.rxBufSize < maxPayload) :
    exec (.init c) s = raise .badConfig s :=
  (unlessFaulted_pass hf _).trans (if_pos hc)

/-- Settles O15: one equation per row of R222's table; after a fault there is no next state by O13's rules. -/
theorem faultsAreRecordedAndChangeNothingElse : Obligations.FaultsAreRecordedAndChangeNothingElse := by
  refine ⟨fun s b t ra p h => ⟨exec_reentrant rfl h, exec_reentrant rfl h, exec_reentrant rfl h⟩,
    fun s ra p t hr hp => exec_transmit_tooLong hr ra hp t,
    fun s p h hp => exec_replyAck_tooLong h hp,
    fun s hr => exec_cbReturn_ready hr,
    fun s c hf hc => exec_init_badConfig hf hc,
    fun i s t f hf hnext => ?_⟩
  cases hf.symm.trans (fault_of_exec_next hnext)

/-- Settles O48: each of the ten rows requires the idle mode. -/
theorem wireRowsInAWindowAreReentrant : Obligations.WireRowsInAWindowAreReentrant := by
  intro s seq len code t i h hi
  have rows : requiresIdle i = true := by
    revert i
    simp [requiresIdle]
  exact exec_reentrant rows h

/-! ### The order of the checks (R225) -/

/-- While a packet is outstanding the length of a synchronized transmit is judged before Busy is answered. -/
theorem exec_transmit_sync_outstanding {s : State} (hr : Ready s) (hout : s.awaitingAck = true) (p : List Byte)
    (t : Nat) : exec (.transmit true p t) s =
      if maxPayload < p.length then raise .payloadTooLong s else finish (some .busy) s := by
  split
  case isTrue hp => exact exec_transmit_tooLong hr true hp t
  case isFalse hp => exact exec_transmit_sync_busy hr hout (Nat.le_of_not_lt hp) t

/-- Settles O16: refusal, then the mode, then the length, then Busy. -/
theorem checksRunInTheirOrder : Obligations.ChecksRunInTheirOrder :=
  ⟨fun _ _ _ hf hres => exec_of_faulted hf hres,
    fun _ _ hf hs hres hinit => exec_beforeInit hf hs hres hinit,
    fun _ _ _ _ _ h => ⟨exec_reentrant rfl h, exec_reentrant rfl h, exec_reentrant rfl h⟩,
    fun _ p hr => ⟨exec_cbReturn_ready hr, exec_replyAck_ready hr p⟩,
    fun _ _ h hp => exec_replyAck_tooLong h hp,
    fun _ p t hr hout => exec_transmit_sync_outstanding hr hout p t⟩

end Sys2Proof.Machine

/-! ## Reset: init

The outcomes of `init` (R250, R251) are `exec_init_eq`, `exec_init_badConfig` and `exec_of_faulted`; what it writes is
`runInit`, one `runInit_<field>` rule for each register. -/

namespace Sys2Proof.Machine

/-- Settles O17: one equation per outcome; `FAULT` stays none because init does not write it. -/
theorem initWritesItsRegisters : Obligations.InitWritesItsRegisters := by
  refine ⟨fun s c hf hc => ⟨_, exec_init_eq hf hc, ?_⟩,
    fun s c hf hc => exec_init_badConfig hf hc,
    fun s c f hf => exec_of_faulted hf rfl⟩
  simpa using hf

end Sys2Proof.Machine
